-- ==== Sys2Proof/Word.lean ====
section
/-! DEFINITION. The word types and the plain data the operations carry: bytes, times, field values,
commands (00_scope.md rules R14 to R16, R19). -/

namespace Sys2Proof

/-- A byte: 8 bits, unsigned (R15). -/
abbrev Byte := BitVec 8

/-- A time: `TIME_W` = 32 bits (R19, decision D33; log 12). -/
abbrev Time := BitVec 32

/-- The four scalar widths of a field, in bytes (R14). -/
inductive Width where
  | w1
  | w2
  | w4
  | w8
deriving DecidableEq, Repr

/-- The number of bytes of a scalar (R14). -/
def Width.bytes : Width → Nat
  | .w1 => 1
  | .w2 => 2
  | .w4 => 4
  | .w8 => 8

/-- The number of bits of a scalar. -/
abbrev Width.bits (w : Width) : Nat := 8 * w.bytes

/-- The field types a descriptor character can denote: "Scalar{width}, CString,
RepeatedScalar{width}, RawBuffer{max}" (R14, R95). -/
inductive FieldKind where
  | scalar (w : Width)
  | str
  | rep (w : Width)
  | raw
deriving DecidableEq, Repr

/-- A field value (R14). The range of a scalar is in its type; the bounds of the other kinds
(no 0x00 in a string, at most 255 elements, at most `MAX_PAYLOAD` bytes) are tested where the
rules test them (R165, R166, R170), so the type does not carry them. -/
inductive FieldVal where
  | scalar (w : Width) (v : BitVec w.bits)
  | cstr (bytes : List Byte)
  | rep (w : Width) (elems : List (BitVec w.bits))
  | raw (bytes : List Byte)
deriving DecidableEq, Repr

/-- A Command: "a fixed 3-byte header (command id, sequence number, status) plus a variable
payload" (R14). -/
structure Command where
  id : Byte
  seq : Byte
  status : Byte
  fields : List FieldVal
deriving DecidableEq, Repr

/-- The Command whose every operand bit is 0. -/
def Command.zero : Command := { id := 0, seq := 0, status := 0, fields := [] }

/-- An external completion target other than `NONE`: `Ext(t)` or `Bulk(r)` (R34). The identifiers
are opaque (U8); a port carries the low `TARGET_W` or `REQID_W` bits of them (log 13). -/
inductive Dest where
  | ext (t : Nat)
  | bulk (r : Nat)
deriving DecidableEq, Repr

end Sys2Proof
end

