-- ==== Sys2Proof/Config.lean ====
section
/-! DEFINITION. The parameters of 00_scope.md rule R12 as plain data, and the test configuration `T0`
of 95_test_vectors.md section 2. The machine carries one such record unchanged (log 2), so a
statement about every state is a statement about every configuration. -/

namespace Sys2Proof

/-- What `CMD_TABLE` says of a command id (R12). -/
inductive TableEntry where
  | unregistered
  | noFields
  | fields (desc : List Byte)
deriving DecidableEq, Repr

/-- One registered command id: `desc` is none for `Registered(none)` (R12). -/
structure CmdRow where
  id : Byte
  desc : Option (List Byte)
deriving DecidableEq, Repr

/-- A place of one byte in a decoded Command: byte 0, 1 or 2 of its header (id, sequence number,
status), or byte number `byte` of the encoded form (R91) of field number `field`. -/
inductive ByteLoc where
  | header (n : Fin 3)
  | field (field byte : Nat)
deriving DecidableEq, Repr

/-- The places of the two DeviceStatus bytes in the commands with this id. -/
structure StatusLoc where
  id : Byte
  first : ByteLoc
  second : ByteLoc
deriving DecidableEq, Repr

/-- The parameter `status_of`, "function Command → none or (byte, byte)" (R12), named by plain data
(log 10): by the places of the two bytes, an id without a row carrying none; or, where no such table
says it, as function number `n` of the uninterpreted `statusFunction`. -/
inductive StatusOf where
  | places (rows : List StatusLoc)
  | function (n : Nat)
deriving DecidableEq, Repr

/-- Any functions from a Command to none or two bytes (R12 `status_of`; log 10): a constant without a
body, so whatever is proved of it holds for every function. -/
opaque statusFunction : Nat → Command → Option (Byte × Byte)

/-- One test on the 16-bit word whose low byte is `dev_status[0]` and whose high byte is
`dev_status[1]`: the bits under `mask` equal `value`. A predicate on the two DeviceStatus bytes is
a list of such tests, any of which suffices (log 11). -/
structure BitTest where
  mask : BitVec 16
  value : BitVec 16
deriving DecidableEq, Repr

/-- The parameters of R12. `TIME_W` is 32 and `REP_PREFIX_BYTES` is 1 by the spec's decisions D33
and D12 (log 12); `resolve` is an operand of the tick (log 14). -/
structure Config where
  /-- `RX_CAP`, capacity of the accumulation buffer. -/
  rxCap : Nat
  /-- `TX_MAX`, the `max_len` the Scheduler passes to `CC.ENC`. -/
  txMax : Nat
  /-- `MAX_PAYLOAD`, capacity of a raw-buffer field. -/
  maxPayload : Nat
  /-- `CMD_TABLE`: the first row with an id counts; an id without a row is unregistered. -/
  cmdTable : List CmdRow
  /-- `ID_ACK`. -/
  idAck : Byte
  /-- `ID_STATUS_REPORT`. -/
  idStatusReport : Byte
  /-- `CMD_KEEPALIVE`. -/
  keepalive : Command
  /-- `CMD_FETCH_CONFIRM`. -/
  fetchConfirm : Command
  /-- `CMD_FETCH_IND`. -/
  fetchInd : Command
  /-- `status_of`. -/
  statusOf : StatusOf
  /-- `ds_confirm_pending`. -/
  confirmPending : List BitTest
  /-- `ds_indication_pending`. -/
  indicationPending : List BitTest
  /-- `ds_free_slot`. -/
  freeSlot : List BitTest
  /-- `ds_joined`. -/
  joined : List BitTest
  /-- `T_TIMEOUT`. -/
  tTimeout : Nat
  /-- `MAX_RETRIES`. -/
  maxRetries : Nat
  /-- `FAIL_THRESHOLD`. -/
  failThreshold : Nat
  /-- `T_KA_IDLE`. -/
  tKaIdle : Nat
  /-- `T_KA_STALL`. -/
  tKaStall : Nat
  /-- `T_TICK`. -/
  tTick : Nat
  /-- `REQID_W`. -/
  reqIdW : Nat
  /-- `TARGET_W`. -/
  targetW : Nat
deriving DecidableEq, Repr

/-- `CMD_TABLE` of `T0` (95_test_vectors.md section 2): "", "1", "112", "12p", "1", "sb48",
no descriptor, "1x". -/
def t0Table : List CmdRow :=
  [ { id := 0x01, desc := some [] },
    { id := 0x04, desc := some [0x31] },
    { id := 0x07, desc := some [0x31, 0x31, 0x32] },
    { id := 0x12, desc := some [0x31, 0x32, 0x70] },
    { id := 0x17, desc := some [0x31] },
    { id := 0x20, desc := some [0x73, 0x62, 0x34, 0x38] },
    { id := 0x30, desc := none },
    { id := 0x31, desc := some [0x31, 0x78] } ]

/-- The test configuration `T0` (95_test_vectors.md section 2), with the default DeviceStatus layout
of R38 (K1; log 11). -/
def t0 : Config where
  rxCap := 64
  txMax := 64
  maxPayload := 32
  cmdTable := t0Table
  idAck := 0x01
  idStatusReport := 0x07
  keepalive := { id := 0x07, seq := 0, status := 0,
                 fields := [.scalar .w1 0, .scalar .w1 0, .scalar .w2 0] }
  fetchConfirm := { id := 0x04, seq := 0, status := 0, fields := [.scalar .w1 0] }
  fetchInd := { id := 0x17, seq := 0, status := 0, fields := [.scalar .w1 0] }
  statusOf := .places [{ id := 0x07, first := .field 0 0, second := .field 1 0 }]
  confirmPending := [{ mask := 0x0004, value := 0x0004 }]
  indicationPending := [{ mask := 0x0008, value := 0x0008 }]
  freeSlot := [{ mask := 0x0020, value := 0x0020 }]
  joined := [{ mask := 0x0003, value := 0x0002 }]
  tTimeout := 100
  maxRetries := 2
  failThreshold := 3
  tKaIdle := 1000
  tKaStall := 500
  tTick := 10
  reqIdW := 8
  targetW := 8

end Sys2Proof
end

