-- ==== Sys2Proof/Syntax.lean ====
section
/-! DEFINITION. The operations of the block (30_encoding.md rule R100), one constructor for each row of
spec/opcode_table.json. -/

namespace Sys2Proof

/-- An operation with its operands. In the `FEED.*` rows `esc` is the bit of the selecting word that
the row's mask leaves free (R93) and `b` the received byte; in `DEC.BAD` and `ENC.BAD` `ch` is the
unrecognised descriptor character (R96). -/
inductive Instr where
  /-- `FC.ENC(p)` (R123). -/
  | fcEnc (p : List Byte)
  /-- `FEED.RESYNC` (R133). -/
  | feedResync (esc : Bool)
  /-- `FEED.SKIP` (R134). -/
  | feedSkip (esc : Bool) (b : Byte)
  /-- `FEED.FLUSH` (R126). -/
  | feedFlush
  /-- `FEED.END` (R127). -/
  | feedEnd
  /-- `FEED.ESC` (R128). -/
  | feedEsc (esc : Bool)
  /-- `FEED.TMARK` (R129). -/
  | feedTmark
  /-- `FEED.TESC` (R130). -/
  | feedTesc
  /-- `FEED.BADESC` (R131). -/
  | feedBadesc (b : Byte)
  /-- `FEED.DATA` (R132). -/
  | feedData (b : Byte)
  /-- `CC.DEC(B)` (R142). -/
  | ccDec (buf : List Byte)
  /-- `DEC.S1` (R144). -/
  | decS1
  /-- `DEC.S2` (R145). -/
  | decS2
  /-- `DEC.S4` (R146). -/
  | decS4
  /-- `DEC.S8` (R147). -/
  | decS8
  /-- `DEC.STR` (R148). -/
  | decStr
  /-- `DEC.R1` (R149). -/
  | decR1
  /-- `DEC.R2` (R150). -/
  | decR2
  /-- `DEC.R4` (R151). -/
  | decR4
  /-- `DEC.R8` (R152). -/
  | decR8
  /-- `DEC.RAW` (R153). -/
  | decRaw
  /-- `DEC.BAD` (R154). -/
  | decBad (ch : Byte)
  /-- `CC.ENC(cmd, max_len)` (R160). -/
  | ccEnc (cmd : Command) (maxLen : BitVec 16)
  /-- `ENC.S1` (R161). -/
  | encS1 (v : FieldVal)
  /-- `ENC.S2` (R162). -/
  | encS2 (v : FieldVal)
  /-- `ENC.S4` (R163). -/
  | encS4 (v : FieldVal)
  /-- `ENC.S8` (R164). -/
  | encS8 (v : FieldVal)
  /-- `ENC.STR` (R165). -/
  | encStr (v : FieldVal)
  /-- `ENC.R1` (R166). -/
  | encR1 (v : FieldVal)
  /-- `ENC.R2` (R167). -/
  | encR2 (v : FieldVal)
  /-- `ENC.R4` (R168). -/
  | encR4 (v : FieldVal)
  /-- `ENC.R8` (R169). -/
  | encR8 (v : FieldVal)
  /-- `ENC.RAW` (R170). -/
  | encRaw (v : FieldVal)
  /-- `ENC.BAD` (R171). -/
  | encBad (ch : Byte)
  /-- `SQ.SEQ` (R183). -/
  | sqSeq
  /-- `SQ.ENQ(cmd, t, now)` (R184). -/
  | sqEnq (cmd : Command) (t : Nat) (now : Time)
  /-- `PQ.PUSH(r)` (R188). -/
  | pqPush (r : Nat)
  /-- `SQ.KILL` (R190). -/
  | sqKill
  /-- `SQ.TICK(now, tx_ok)`, with the answer `resolve` gives if it is asked (R200, R206). -/
  | sqTick (now : Time) (txOk : Bool) (answer : Option Command)
  /-- `TICK.SWEEP(now)` (R201). -/
  | tickSweep (now : Time)
  /-- `TICK.GEN(now)`, with the answer of `resolve` (R204, R206). -/
  | tickGen (now : Time) (answer : Option Command)
  /-- `TICK.SEND(now, tx_ok)` (R208). -/
  | tickSend (now : Time) (txOk : Bool)
  /-- `TICK.REARM(now)` (R210). -/
  | tickRearm (now : Time)
  /-- `SQ.DISP(cmd, now)` (R211). -/
  | sqDisp (cmd : Command) (now : Time)
  /-- `RX.BYTE(b, now)` (R230). -/
  | rxByte (b : Byte) (now : Time)
  /-- `EV.CONN(now)` (R234). -/
  | evConn (now : Time)
  /-- `EV.DISC(reason)` (R236). -/
  | evDisc (reason : BitVec 3)
  /-- `SYS.RESET` (R238). -/
  | sysReset
  /-- `SYS.CLRDIAG` (R239). -/
  | sysClrdiag
  /-- `SYS.RDCSR(n)` (R240). -/
  | sysRdcsr (n : Byte)
deriving DecidableEq, Repr

end Sys2Proof
end

