-- ==== Sys2Proof/WellFormed.lean ====
section
/-! DEFINITION. Which terms of `Instr` stand for an operation that an encoding can select
(30_encoding.md rules R93, R95, R96). Operand values have no further check: the codec itself decides
what it makes of a Command (R160), and an opaque identifier has no illegal value (U8). -/

namespace Sys2Proof

/-- The ten descriptor characters that denote a field type (R95). -/
def descriptorCodes : List Byte :=
  [0x31, 0x32, 0x34, 0x38, 0x73, 0x61, 0x62, 0x63, 0x64, 0x70]

/-- The operand of a `FEED.*`, `DEC.BAD` or `ENC.BAD` row is a value that selects that row and no
earlier one (R93: "the first that matches is taken"; R95: "any other"). -/
def Instr.wellFormed : Instr → Bool
  | .feedSkip _ b => b != 0xC0
  | .feedBadesc b => b != 0xC0 && b != 0xDB && b != 0xDC && b != 0xDD
  | .feedData b => b != 0xC0 && b != 0xDB
  | .decBad ch => !descriptorCodes.contains ch
  | .encBad ch => !descriptorCodes.contains ch
  | .fcEnc _ => true
  | .feedResync _ => true
  | .feedFlush => true
  | .feedEnd => true
  | .feedEsc _ => true
  | .feedTmark => true
  | .feedTesc => true
  | .ccDec _ => true
  | .decS1 => true
  | .decS2 => true
  | .decS4 => true
  | .decS8 => true
  | .decStr => true
  | .decR1 => true
  | .decR2 => true
  | .decR4 => true
  | .decR8 => true
  | .decRaw => true
  | .ccEnc _ _ => true
  | .encS1 _ => true
  | .encS2 _ => true
  | .encS4 _ => true
  | .encS8 _ => true
  | .encStr _ => true
  | .encR1 _ => true
  | .encR2 _ => true
  | .encR4 _ => true
  | .encR8 _ => true
  | .encRaw _ => true
  | .sqSeq => true
  | .sqEnq _ _ _ => true
  | .pqPush _ => true
  | .sqKill => true
  | .sqTick _ _ _ => true
  | .tickSweep _ => true
  | .tickGen _ _ => true
  | .tickSend _ _ => true
  | .tickRearm _ => true
  | .sqDisp _ _ => true
  | .rxByte _ _ => true
  | .evConn _ => true
  | .evDisc _ => true
  | .sysReset => true
  | .sysClrdiag => true
  | .sysRdcsr _ => true

end Sys2Proof
end

