-- ==== Sys2Proof/Decode.lean ====
section
/-! DEFINITION. Selecting an operation (30_encoding.md rules R86, R93, R95, R99, R100): the transfers on
the block's channels, the decoder from a transfer to an operation, and the encoder back. -/

namespace Sys2Proof

/-- `MARK`, frame start and frame end marker (R11). -/
def MARK : Byte := 0xC0
/-- `ESCB`, escape marker (R11). -/
def ESCB : Byte := 0xDB
/-- `T_MARK`, the substitute for `MARK` (R11; pairing K2, log 25). -/
def T_MARK : Byte := 0xDC
/-- `T_ESC`, the substitute for `ESCB` (R11; pairing K2, log 25). -/
def T_ESC : Byte := 0xDD

/-- The operand lines of the `HOST` channel (R86, R99). Each operation reads the lines R99 lists for
it; the spec gives the lines no bit layout (log 17). -/
structure HostOperands where
  cmd : Command
  target : Nat
  reqId : Nat
  reg : Byte
  bytes : List Byte
  maxLen : BitVec 16
deriving DecidableEq, Repr

/-- Every operand line at 0. -/
def HostOperands.zero : HostOperands :=
  { cmd := .zero, target := 0, reqId := 0, reg := 0, bytes := [], maxLen := 0 }

/-- The operations of the table that have no encoding and are sub-operations (R100). -/
inductive SubOp where
  | seq
  | kill
  | sweep (now : Time)
  | gen (now : Time) (answer : Option Command)
  | send (now : Time) (txOk : Bool)
  | rearm (now : Time)
  | disp (cmd : Command) (now : Time)
deriving DecidableEq, Repr

/-- What selects an operation. The first four are the channels of R86; the last four select a
sub-operation by itself, which no channel does (R100; log 3). -/
inductive Transfer where
  /-- One byte on `RX`. -/
  | rx (b : Byte) (now : Time)
  /-- A request on `HOST`: 5-bit op, operands. -/
  | host (op : BitVec 5) (x : HostOperands) (now : Time)
  /-- A link event on `XPT`: 2-bit code, 3-bit reason. -/
  | xpt (code : BitVec 2) (reason : BitVec 3) (now : Time)
  /-- One firing of the timer, with `tx_ok` and the answer of `resolve` if it is asked. -/
  | timer (now : Time) (txOk : Bool) (answer : Option Command)
  /-- The 10-bit word of R93 by itself. -/
  | feed (k : BitVec 10)
  /-- A descriptor character met by the decoder (R95). -/
  | descDec (ch : Byte)
  /-- A descriptor character met by the encoder, with the value `v` (R95). -/
  | descEnc (ch : Byte) (v : FieldVal)
  /-- A sub-operation without an encoding. -/
  | sub (o : SubOp)
deriving DecidableEq, Repr

/-- The transfers the environment can make: those on a channel of R86. -/
def Transfer.external : Transfer → Bool
  | .rx _ _ => true
  | .host _ _ _ => true
  | .xpt _ _ _ => true
  | .timer _ _ _ => true
  | .feed _ => false
  | .descDec _ => false
  | .descEnc _ _ => false
  | .sub _ => false

/-- Why a transfer selects no operation (R101). -/
inductive Reject where
  /-- A `HOST` op code outside R99: answered `Err(BadOp)`. -/
  | reservedHostOp (op : BitVec 5)
  /-- An `XPT` code 0 or 3: ignored. -/
  | reservedXptCode (code : BitVec 2)
deriving DecidableEq, Repr

/-- The receiver step R93 selects, with what the selecting word leaves free. -/
inductive FeedSel where
  | resync (esc : Bool)
  | skip (esc : Bool) (b : Byte)
  | flush
  | endFrame
  | esc (esc : Bool)
  | tmark
  | tesc
  | badesc (b : Byte)
  | data (b : Byte)
deriving DecidableEq, Repr

/-- Bit 9 of the selecting word: `rx_drop` (R93). -/
def keyDrop (k : BitVec 10) : Bool := k.getLsbD 9

/-- Bit 8 of the selecting word: `rx_esc` (R93). -/
def keyEsc (k : BitVec 10) : Bool := k.getLsbD 8

/-- Bits 7:0 of the selecting word: the byte (R93). -/
def keyByte (k : BitVec 10) : Byte := k.setWidth 8

/-- The word `{rx_drop, rx_esc, b}` (R93). -/
def feedWord (drop esc : Bool) (b : Byte) : BitVec 10 :=
  BitVec.ofNat 10 (512 * drop.toNat + 256 * esc.toNat + b.toNat)

/-- "The rows are tested top to bottom and the first that matches is taken" (R93). -/
def selectFeed (k : BitVec 10) : FeedSel :=
  if k &&& 0x2FF = 0x2C0 then .resync (keyEsc k)
  else if k &&& 0x200 = 0x200 then .skip (keyEsc k) (keyByte k)
  else if k &&& 0x3FF = 0x1C0 then .flush
  else if k &&& 0x3FF = 0x0C0 then .endFrame
  else if k &&& 0x2FF = 0x0DB then .esc (keyEsc k)
  else if k &&& 0x3FF = 0x1DC then .tmark
  else if k &&& 0x3FF = 0x1DD then .tesc
  else if k &&& 0x300 = 0x100 then .badesc (keyByte k)
  else .data (keyByte k)

/-- The operation of the table that a selected receiver step is. -/
def FeedSel.instr : FeedSel → Instr
  | .resync e => .feedResync e
  | .skip e b => .feedSkip e b
  | .flush => .feedFlush
  | .endFrame => .feedEnd
  | .esc e => .feedEsc e
  | .tmark => .feedTmark
  | .tesc => .feedTesc
  | .badesc b => .feedBadesc b
  | .data b => .feedData b

/-- The field type a descriptor character denotes, none for a reserved one (R95, R96). -/
def fieldKind (ch : Byte) : Option FieldKind :=
  if ch = 0x31 then some (.scalar .w1)
  else if ch = 0x32 then some (.scalar .w2)
  else if ch = 0x34 then some (.scalar .w4)
  else if ch = 0x38 then some (.scalar .w8)
  else if ch = 0x73 then some .str
  else if ch = 0x61 then some (.rep .w1)
  else if ch = 0x62 then some (.rep .w2)
  else if ch = 0x63 then some (.rep .w4)
  else if ch = 0x64 then some (.rep .w8)
  else if ch = 0x70 then some .raw
  else none

/-- The descriptor character of a field type (R95). -/
def kindCode : FieldKind → Byte
  | .scalar .w1 => 0x31
  | .scalar .w2 => 0x32
  | .scalar .w4 => 0x34
  | .scalar .w8 => 0x38
  | .str => 0x73
  | .rep .w1 => 0x61
  | .rep .w2 => 0x62
  | .rep .w4 => 0x63
  | .rep .w8 => 0x64
  | .raw => 0x70

/-- The decode step of a descriptor character (R95). -/
def decodeDescDec (ch : Byte) : Instr :=
  match fieldKind ch with
  | some (.scalar .w1) => .decS1
  | some (.scalar .w2) => .decS2
  | some (.scalar .w4) => .decS4
  | some (.scalar .w8) => .decS8
  | some .str => .decStr
  | some (.rep .w1) => .decR1
  | some (.rep .w2) => .decR2
  | some (.rep .w4) => .decR4
  | some (.rep .w8) => .decR8
  | some .raw => .decRaw
  | none => .decBad ch

/-- The encode step of a descriptor character (R95), with its value. -/
def decodeDescEnc (ch : Byte) (v : FieldVal) : Instr :=
  match fieldKind ch with
  | some (.scalar .w1) => .encS1 v
  | some (.scalar .w2) => .encS2 v
  | some (.scalar .w4) => .encS4 v
  | some (.scalar .w8) => .encS8 v
  | some .str => .encStr v
  | some (.rep .w1) => .encR1 v
  | some (.rep .w2) => .encR2 v
  | some (.rep .w4) => .encR4 v
  | some (.rep .w8) => .encR8 v
  | some .raw => .encRaw v
  | none => .encBad ch

/-- The operation a `HOST` op code selects (R99). -/
def decodeHost (op : BitVec 5) (x : HostOperands) (now : Time) : Except Reject Instr :=
  if op = 0x01 then .ok (.sqEnq x.cmd x.target now)
  else if op = 0x02 then .ok (.pqPush x.reqId)
  else if op = 0x03 then .ok (.sysRdcsr x.reg)
  else if op = 0x04 then .ok .sysClrdiag
  else if op = 0x05 then .ok .sysReset
  else if op = 0x08 then .ok (.fcEnc x.bytes)
  else if op = 0x09 then .ok (.ccEnc x.cmd x.maxLen)
  else if op = 0x0A then .ok (.ccDec x.bytes)
  else .error (.reservedHostOp op)

/-- The operation an `XPT` code selects (R99). -/
def decodeXpt (code : BitVec 2) (reason : BitVec 3) (now : Time) : Except Reject Instr :=
  if code = 1 then .ok (.evConn now)
  else if code = 2 then .ok (.evDisc reason)
  else .error (.reservedXptCode code)

/-- The sub-operation itself (R100). -/
def SubOp.instr : SubOp → Instr
  | .seq => .sqSeq
  | .kill => .sqKill
  | .sweep now => .tickSweep now
  | .gen now answer => .tickGen now answer
  | .send now txOk => .tickSend now txOk
  | .rearm now => .tickRearm now
  | .disp cmd now => .sqDisp cmd now

/-- The operation a transfer selects (R86, R93, R95, R99, R100), or why it selects none (R101). -/
def decode : Transfer → Except Reject Instr
  | .rx b now => .ok (.rxByte b now)
  | .host op x now => decodeHost op x now
  | .xpt code reason now => decodeXpt code reason now
  | .timer now txOk answer => .ok (.sqTick now txOk answer)
  | .feed k => .ok (selectFeed k).instr
  | .descDec ch => .ok (decodeDescDec ch)
  | .descEnc ch v => .ok (decodeDescEnc ch v)
  | .sub o => .ok o.instr

/-- A `HOST` transfer with the given op code, its `now` 0. -/
def hostTransfer (op : BitVec 5) (x : HostOperands) : Transfer := .host op x 0

/-- The transfer that selects a well-formed operation, written from the tables of R93, R95 and R99;
lines an operation does not read are 0. -/
def encode : Instr → Transfer
  | .fcEnc p => hostTransfer 0x08 { HostOperands.zero with bytes := p }
  | .feedResync e => .feed (feedWord true e 0xC0)
  | .feedSkip e b => .feed (feedWord true e b)
  | .feedFlush => .feed (feedWord false true 0xC0)
  | .feedEnd => .feed (feedWord false false 0xC0)
  | .feedEsc e => .feed (feedWord false e 0xDB)
  | .feedTmark => .feed (feedWord false true 0xDC)
  | .feedTesc => .feed (feedWord false true 0xDD)
  | .feedBadesc b => .feed (feedWord false true b)
  | .feedData b => .feed (feedWord false false b)
  | .ccDec buf => hostTransfer 0x0A { HostOperands.zero with bytes := buf }
  | .decS1 => .descDec (kindCode (.scalar .w1))
  | .decS2 => .descDec (kindCode (.scalar .w2))
  | .decS4 => .descDec (kindCode (.scalar .w4))
  | .decS8 => .descDec (kindCode (.scalar .w8))
  | .decStr => .descDec (kindCode .str)
  | .decR1 => .descDec (kindCode (.rep .w1))
  | .decR2 => .descDec (kindCode (.rep .w2))
  | .decR4 => .descDec (kindCode (.rep .w4))
  | .decR8 => .descDec (kindCode (.rep .w8))
  | .decRaw => .descDec (kindCode .raw)
  | .decBad ch => .descDec ch
  | .ccEnc cmd m => hostTransfer 0x09 { HostOperands.zero with cmd := cmd, maxLen := m }
  | .encS1 v => .descEnc (kindCode (.scalar .w1)) v
  | .encS2 v => .descEnc (kindCode (.scalar .w2)) v
  | .encS4 v => .descEnc (kindCode (.scalar .w4)) v
  | .encS8 v => .descEnc (kindCode (.scalar .w8)) v
  | .encStr v => .descEnc (kindCode .str) v
  | .encR1 v => .descEnc (kindCode (.rep .w1)) v
  | .encR2 v => .descEnc (kindCode (.rep .w2)) v
  | .encR4 v => .descEnc (kindCode (.rep .w4)) v
  | .encR8 v => .descEnc (kindCode (.rep .w8)) v
  | .encRaw v => .descEnc (kindCode .raw) v
  | .encBad ch => .descEnc ch (.raw [])
  | .sqSeq => .sub .seq
  | .sqEnq cmd t now => .host 0x01 { HostOperands.zero with cmd := cmd, target := t } now
  | .pqPush r => hostTransfer 0x02 { HostOperands.zero with reqId := r }
  | .sqKill => .sub .kill
  | .sqTick now txOk answer => .timer now txOk answer
  | .tickSweep now => .sub (.sweep now)
  | .tickGen now answer => .sub (.gen now answer)
  | .tickSend now txOk => .sub (.send now txOk)
  | .tickRearm now => .sub (.rearm now)
  | .sqDisp cmd now => .sub (.disp cmd now)
  | .rxByte b now => .rx b now
  | .evConn now => .xpt 1 0 now
  | .evDisc reason => .xpt 2 reason 0
  | .sysReset => hostTransfer 0x05 .zero
  | .sysClrdiag => hostTransfer 0x04 .zero
  | .sysRdcsr n => hostTransfer 0x03 { HostOperands.zero with reg := n }

/-- The transfer a table word stands for, every operand 0. A 16-bit word is the word of R93. An
8-bit word does not say its channel (log 16): below 0x20 it is a `HOST` op, a descriptor character
is one met by the decoder, any other byte is one on `RX`. No row has another width. -/
def tableTransfer (nbits w : Nat) : Option Transfer :=
  if nbits = 16 then
    if w < 1024 then some (.feed (BitVec.ofNat 10 w)) else none
  else if nbits = 8 then
    if w < 32 then some (.host (BitVec.ofNat 5 w) .zero 0)
    else if w < 256 then
      if (fieldKind (BitVec.ofNat 8 w)).isSome then some (.descDec (BitVec.ofNat 8 w))
      else some (.rx (BitVec.ofNat 8 w) 0)
    else none
  else none

/-- The operation the decoder reads from a table word (see `tableTransfer`). -/
def decodeTableWord (nbits w : Nat) : Option Instr :=
  match tableTransfer nbits w with
  | none => none
  | some t =>
    match decode t with
    | .ok i => some i
    | .error _ => none

end Sys2Proof
end

