-- ==== Sys2Proof/Machine/State.lean ====
section
/-! DEFINITION. The state of the block (10_state.md rules R20 to R48), the reasons a step can stop, and
the state after reset (R48). -/

namespace Sys2Proof.Machine

/-- Contents of the byte space `RXB` (R60): (offset, byte) pairs, offsets strictly rising, no pair
equal to what an unlisted offset reads as (log 5). -/
abbrev Memory := List Host.Cell

/-- The scheduling state of a QueueItem (R30). -/
inductive ItemState where
  | init
  | waitSend
  | waitConfirm
deriving DecidableEq, Repr

/-- A QueueItem (R29 to R34). `target` is none for `NONE`. -/
structure QueueItem where
  state : ItemState
  cmd : Command
  retries : BitVec 8
  tTx : Time
  target : Option Dest
deriving DecidableEq, Repr

/-- The item of every slot after reset: free; the other fields, which R48 leaves unspecified and
unread, are zero (log 6). -/
def QueueItem.reset : QueueItem :=
  { state := .init, cmd := .zero, retries := 0, tTx := 0, target := none }

/-- The ten kinds of decode error (R252). -/
inductive ParseError where
  | bufferTooSmall
  | unknownCommand
  | noFields
  | wrongStoredLength
  | charFieldOverflow
  | dbufIncomplete
  | dbufLenLargerData
  | dbufLenTooLarge
  | readOverflow
  | unknownField
deriving DecidableEq, Repr

/-- Completion codes (R253). -/
inductive Completion where
  | success
  | timeout
  | disconnected
  | rejected
deriving DecidableEq, Repr

/-- Synchronous error results of the `HOST` channel (R253). -/
inductive HostError where
  | queueFull
  | pendingQueueFull
  | disconnected
  | rejected
  | badOp
deriving DecidableEq, Repr

/-- The events of the output stream (R45). A `Done` has a target other than `NONE`; a disconnect
reason is its 3-bit code, passed through (R236, R254). -/
inductive Event where
  | done (target : Dest) (code : Completion) (rsp : Option Command)
  | commandInd (cmd : Command)
  | devStatusChanged (b0 b1 : Byte)
  | connected
  | disconnected (reason : BitVec 3)
  | teardownReq
deriving DecidableEq, Repr

/-- The outcome of an operation (R18): its result value. `none` for an operation that has none. -/
inductive Resp where
  /-- no result -/
  | none
  /-- `Ok` of `PQ.PUSH` -/
  | ok
  /-- `Ok(slot)` of `SQ.ENQ` -/
  | okSlot (slot : Fin 32)
  /-- `Err(code)` of a `HOST` request -/
  | err (e : HostError)
  /-- the 16-bit value of `SYS.RDCSR` -/
  | value (v : BitVec 16)
  /-- the bytes of `FC.ENC` or `CC.ENC`; the empty list is the failure of `CC.ENC` -/
  | bytes (bs : List Byte)
  /-- `Ok(Command)` of `CC.DEC` -/
  | decoded (cmd : Command)
  /-- `Err(ParseError)` of `CC.DEC` or a `DEC.*` step -/
  | parseErr (e : ParseError)
  /-- `none` or `deliver(p)` of a `FEED.*` step -/
  | fed (delivered : Option (List Byte))
  /-- the sequence number of `SQ.SEQ` -/
  | seqNum (n : Byte)
deriving DecidableEq, Repr

/-- The locals of one `CC.DEC` (R140): `B`, `id`, `cur`, `di`, `fields` (log 3). -/
structure DecWork where
  buf : List Byte
  id : Byte
  cur : Nat
  di : Nat
  fields : List FieldVal
deriving DecidableEq, Repr

/-- The locals of one `CC.ENC` (R140): `out`, `max_len`, `di` (log 3). -/
structure EncWork where
  out : List Byte
  maxLen : Nat
  di : Nat
deriving DecidableEq, Repr

/-- The state of the block: the table of R48, the codec locals of R140 (log 3), and the model's own
`cfg` (log 2), `inbox` (log 1) and `resp` (log 4). -/
structure State where
  /-- the parameters of R12, written by no operation -/
  cfg : Config
  /-- the transfers the environment makes next, oldest first -/
  inbox : List Transfer
  /-- the outcome of the last operation -/
  resp : Resp
  /-- `rx_buf` (R21) -/
  rxb : Memory
  /-- `rx_len` (R21) -/
  rxLen : Nat
  /-- `rx_esc` (R22) -/
  rxEsc : Bool
  /-- `rx_drop` (R23) -/
  rxDrop : Bool
  /-- `rx_ovf` (R24) -/
  rxOvf : Bool
  /-- `last_perr` (R28) -/
  lastPerr : BitVec 4
  /-- `cq` (R29) -/
  cq : Vector QueueItem 32
  /-- `wr_ptr` (R35) -/
  wrPtr : Fin 32
  /-- `snd_ptr` (R35) -/
  sndPtr : Fin 32
  /-- `seq_ctr` (R36) -/
  seqCtr : BitVec 8
  /-- `dev_status[0]` (R37) -/
  devStatus0 : Byte
  /-- `dev_status[1]` (R37) -/
  devStatus1 : Byte
  /-- `fail_ctr` (R39) -/
  failCtr : BitVec 8
  /-- `pq` (R40) -/
  pq : Vector Nat 16
  /-- `pq_rd` (R40) -/
  pqRd : Fin 16
  /-- `pq_cnt` (R40) -/
  pqCnt : Nat
  /-- `timer_armed` (R41) -/
  timerArmed : Bool
  /-- `timer_due` (R41) -/
  timerDue : Time
  /-- `t_last_tx` (R42) -/
  tLastTx : Time
  /-- `t_last_confirm` (R42) -/
  tLastConfirm : Time
  /-- `link_up` (R43) -/
  linkUp : Bool
  /-- `tx` (R44) -/
  tx : List Byte
  /-- `ev` (R45) -/
  ev : List Event
  /-- locals of the decoder (R140) -/
  decW : DecWork
  /-- locals of the encoder (R140) -/
  encW : EncWork
deriving DecidableEq, Repr

/-- Why a step stops with a fault. -/
inductive Fault where
  /-- `FEED.END`, by itself or inside `RX.BYTE`, would read `RXB` up to offset `n` although only
  offsets below `RX_CAP` exist: "an offset at or past the end of a buffer is not an address" (R61).
  Only a state with `rx_len` above `RX_CAP` raises it, and none is reachable (R49 (a)). Safe. -/
  | rxbOffset (n : Nat)
deriving DecidableEq, Repr

/-- Why a step is refused. -/
inductive Refusal where
  /-- Raised by `exec` for an operation without a meaning; no arm does. Safe. -/
  | notModelled (mnemonic : String)
  /-- Raised by `step` when the parameters are not well-formed: "A model refuses a configuration that
  is not well-formed" (R13). Safe. -/
  | illFormedConfiguration
deriving DecidableEq, Repr

/-- The state after reset or power-on (R48, R290) under the configuration `T0` (log 2). What R48
leaves unspecified and unread is zero or empty here (log 5, 6, 7, 8). -/
def State.reset : State where
  cfg := t0
  inbox := []
  resp := .none
  rxb := []
  rxLen := 0
  rxEsc := false
  rxDrop := false
  rxOvf := false
  lastPerr := 0
  cq := Vector.replicate 32 QueueItem.reset
  wrPtr := 0
  sndPtr := 0
  seqCtr := 0
  devStatus0 := 0
  devStatus1 := 0
  failCtr := 0
  pq := Vector.replicate 16 0
  pqRd := 0
  pqCnt := 0
  timerArmed := false
  timerDue := 0
  tLastTx := 0
  tLastConfirm := 0
  linkUp := false
  tx := []
  ev := []
  decW := { buf := [], id := 0, cur := 0, di := 0, fields := [] }
  encW := { out := [], maxLen := 0, di := 0 }

end Sys2Proof.Machine
end

