-- ==== Sys2Proof/Machine/Operands.lean ====
section
/-! DEFINITION. Operand assembly (30_encoding.md rules R88, R91, R92; 00_scope.md rules R15, R16, R19;
20_memory.md rules R62 to R64, R81): byte order, the running sum, escaping, field formats, table
look-up, times, and the readings of the DeviceStatus bytes. -/

namespace Sys2Proof.Machine

/-- `le_N(v)`: the `n` low bytes of `v`, least significant first (R16). -/
def leBytes : Nat → Nat → List Byte
  | 0, _ => []
  | n + 1, v => BitVec.ofNat 8 v :: leBytes n (v / 256)

/-- `unle(bs)`: the inverse of `le_N` (R16). -/
def unle : List Byte → Nat
  | [] => 0
  | b :: bs => b.toNat + 256 * unle bs

/-- `MemRead(B:off, n)` of a byte list (R17). -/
def slice (buf : List Byte) (off n : Nat) : List Byte := (buf.drop off).take n

/-- `sum16(bs)`: the wrapping 16-bit sum of the bytes (R16, R81 (a)). -/
def sum16 (bs : List Byte) : BitVec 16 := bs.foldl (fun sum b => sum + b.setWidth 16) 0

/-- `neg16(x)`: the two's complement of a 16-bit value (R15). -/
def neg16 (x : BitVec 16) : BitVec 16 := ~~~x + 1

/-- `crc(bs)` (R121). -/
def crc (bs : List Byte) : BitVec 16 := neg16 (sum16 bs)

/-- `esc(b)`: the wire form of one unescaped byte (R88, R120). -/
def escByte (b : Byte) : List Byte :=
  if b = MARK then [ESCB, T_MARK] else if b = ESCB then [ESCB, T_ESC] else [b]

/-- The low byte of a 16-bit value. -/
def lowByte (c : BitVec 16) : Byte := c.setWidth 8

/-- The high byte of a 16-bit value. -/
def highByte (c : BitVec 16) : Byte := (c >>> 8).setWidth 8

/-- A 16-bit value from its high and low byte: "(buffer[len-1] << 8) | buffer[len-2]" (R64, R92). -/
def word16 (hi lo : Byte) : BitVec 16 := BitVec.ofNat 16 (hi.toNat * 256 + lo.toNat)

/-- The bytes of a field value in the command buffer (R91). -/
def fieldBytes : FieldVal → List Byte
  | .scalar w v => leBytes w.bytes v.toNat
  | .cstr bs => bs ++ [0x00]
  | .rep w xs => BitVec.ofNat 8 xs.length :: xs.flatMap (fun x => leBytes w.bytes x.toNat)
  | .raw bs => leBytes 2 bs.length ++ bs

/-- `CMD_TABLE(id)` (R12). -/
def cmdEntry (c : Config) (id : Byte) : TableEntry :=
  match c.cmdTable.find? (fun r => r.id == id) with
  | none => .unregistered
  | some r =>
    match r.desc with
    | none => .noFields
    | some d => .fields d

/-- `age(now, t) = (now − t) mod 2^TIME_W` (R19). -/
def age (now t : Time) : Nat := (now - t).toNat

/-- `due(now, t)`: `age(now, t) < 2^(TIME_W−1)` (R19). -/
def due (now t : Time) : Bool := decide (age now t < 2 ^ 31)

/-- The byte of a Command at a place (R12 `status_of`; log 10). -/
def byteAt (cmd : Command) : ByteLoc → Option Byte
  | .header n => [cmd.id, cmd.seq, cmd.status][n.val]?
  | .field i k =>
    match cmd.fields[i]? with
    | none => none
    | some v => (fieldBytes v)[k]?

/-- The two DeviceStatus bytes a table of places gives, none where a place is missing (log 10). -/
def statusAt (rows : List StatusLoc) (cmd : Command) : Option (Byte × Byte) :=
  match rows.find? (fun l => l.id == cmd.id) with
  | none => none
  | some l =>
    match byteAt cmd l.first, byteAt cmd l.second with
    | some b0, some b1 => some (b0, b1)
    | _, _ => none

/-- `status_of(cmd)`: the two DeviceStatus bytes, if the command carries them (R12, R212; log 10). -/
def statusOf (c : Config) (cmd : Command) : Option (Byte × Byte) :=
  match c.statusOf with
  | .places rows => statusAt rows cmd
  | .function n => statusFunction n cmd

/-- A predicate on the two DeviceStatus bytes (R38; log 11). -/
def holdsOn (tests : List BitTest) (b0 b1 : Byte) : Bool :=
  tests.any (fun t => word16 b1 b0 &&& t.mask == t.value)

/-- The `TARGET_W`-bit identifier a completion-target port carries (R184; log 13). -/
def targetPort (c : Config) (t : Nat) : Nat := t % 2 ^ c.targetW

/-- The `REQID_W`-bit identifier a request-id port carries (R188; log 13). -/
def reqIdPort (c : Config) (r : Nat) : Nat := r % 2 ^ c.reqIdW

end Sys2Proof.Machine
end

