-- ==== Sys2Proof/Machine/Ops.lean ====
section
/-! DEFINITION. The named operations over memory and state that the meanings share: the byte space
`RXB`, `emit` and `tx` (00_scope.md rule R18), the timer (10_state.md rule R41), and the functions on
the CommandQueue (42_scheduler_queue.md rules R181, R182). An error outcome saves no state and
transfers control nowhere (60_exceptions.md rule R258), so there is no exception entry to share. -/

namespace Sys2Proof.Machine

/-- What an unlisted offset of `RXB` reads as (log 5). -/
def memUnlisted : Byte := 0x00

/-- One byte of `RXB`. -/
def memRead : Memory → Nat → Byte
  | [], _ => memUnlisted
  | (b, v) :: m, a => if b = a then v else memRead m a

/-- One byte written to `RXB`, keeping the canonical form. -/
def memWrite : Memory → Nat → Byte → Memory
  | [], a, v => if v = memUnlisted then [] else [(a, v)]
  | (b, u) :: m, a, v =>
    if a < b then (if v = memUnlisted then (b, u) :: m else (a, v) :: (b, u) :: m)
    else if a = b then (if v = memUnlisted then m else (b, v) :: m)
    else (b, u) :: memWrite m a v

/-- `MemRead(RXB:off, n)` (R17). -/
def memReadRange (m : Memory) (off : Nat) : Nat → List Byte
  | 0 => []
  | n + 1 => memRead m off :: memReadRange m (off + 1) n

/-- Every listed offset is above `lo`'s bound and they rise strictly, and no pair is equal to what an
unlisted offset reads as. -/
def Memory.wfFrom : Nat → Memory → Bool
  | _, [] => true
  | lo, (a, v) :: m => decide (lo ≤ a) && (v != memUnlisted) && Memory.wfFrom (a + 1) m

/-- The canonical form of a memory. -/
def Memory.wf (m : Memory) : Bool := Memory.wfFrom 0 m

/-- The operation ends with this outcome (R18). -/
def respond (r : Resp) (s : State) : State := { s with resp := r }

/-- `emit Ev` (R18, R45). -/
def emit (e : Event) (s : State) : State := { s with ev := s.ev ++ [e] }

/-- `emit Done(target, code, rsp)` unless the target is `NONE` (R45). -/
def emitDone (target : Option Dest) (code : Completion) (rsp : Option Command) (s : State) : State :=
  match target with
  | none => s
  | some d => emit (.done d code rsp) s

/-- `tx(bs)` (R18, R44). -/
def sendBytes (bs : List Byte) (s : State) : State := { s with tx := s.tx ++ bs }

/-- `cq[i] <- q`. -/
def setItem (i : Fin 32) (q : QueueItem) (s : State) : State := { s with cq := s.cq.set i q }

/-- `cq[i].state <- st`; the other fields of the slot keep their values (R31). -/
def setItemState (i : Fin 32) (st : ItemState) (s : State) : State :=
  setItem i { s.cq[i] with state := st } s

/-- `timer_armed <- 1; timer_due <- t` (R41). -/
def armTimer (t : Time) (s : State) : State := { s with timerArmed := true, timerDue := t }

/-- `timer_armed <- 0` (R41). -/
def disarmTimer (s : State) : State := { s with timerArmed := false }

/-- The slot numbers 0 to 31 in order. -/
def slots : List (Fin 32) := List.finRange 32

/-- The slot numbers `p, p + 1, ..., p + 31` modulo 32 (R182, R208). -/
def slotsFrom (p : Fin 32) : List (Fin 32) := slots.map (fun k => p + k)

/-- `free(i)` (R181). -/
def free (s : State) (i : Fin 32) : Bool := s.cq[i].state == .init

/-- `inflight()` (R181). -/
def inflight (s : State) : Nat := slots.countP (fun i => s.cq[i].state == .waitConfirm)

/-- `nonfree_count()` (R181). -/
def nonfreeCount (s : State) : Nat := slots.countP (fun i => !free s i)

/-- `any_waitsend()` (R181). -/
def anyWaitSend (s : State) : Bool := slots.any (fun i => s.cq[i].state == .waitSend)

/-- `queued(id)` (R181). -/
def queued (s : State) (id : Byte) : Bool := slots.any (fun i => !free s i && s.cq[i].cmd.id == id)

/-- `seq_in_use(n)` (R181). -/
def seqInUse (s : State) (n : Byte) : Bool :=
  slots.any (fun i => !free s i && s.cq[i].cmd.seq == n)

/-- `find_free()`: the first free slot scanning forward from `wr_ptr` (R182). -/
def findFree (s : State) : Option (Fin 32) := (slotsFrom s.wrPtr).find? (free s)

/-- `WINDOW` (R11). -/
def window : Nat := 2

/-- `PQ_CAP` (R11). -/
def pqCap : Nat := 16

/-- The cell `k` places after `pq_rd`, modulo 16 (R40). -/
def pqIndex (s : State) (k : Nat) : Fin 16 := s.pqRd + Fin.ofNat 16 k

/-- The content of the PendingRequestQueue, oldest first (R40). -/
def pqContent (s : State) : List Nat := (List.range s.pqCnt).map (fun k => s.pq[pqIndex s k])

end Sys2Proof.Machine
end

