-- ==== Sys2Proof/Machine/Flags.lean ====
section
/-! DEFINITION. Flags and codes: the receiver's selecting word (30_encoding.md rule R93), the read-out
registers (10_state.md rule R47), and the numbers of states, errors, completions and reasons
(10_state.md rule R30; 60_exceptions.md rules R252 to R254). -/

namespace Sys2Proof.Machine

/-- The word `{rx_drop, rx_esc, b}` that selects the receiver's step for a byte (R93). -/
def feedKey (s : State) (b : Byte) : BitVec 10 := feedWord s.rxDrop s.rxEsc b

/-- The 2-bit code of an item's state (R30). -/
def ItemState.code : ItemState → BitVec 2
  | .init => 0
  | .waitSend => 1
  | .waitConfirm => 2

/-- The code of a decode error (R252). -/
def ParseError.code : ParseError → BitVec 4
  | .bufferTooSmall => 1
  | .unknownCommand => 2
  | .noFields => 3
  | .wrongStoredLength => 4
  | .charFieldOverflow => 5
  | .dbufIncomplete => 6
  | .dbufLenLargerData => 7
  | .dbufLenTooLarge => 8
  | .readOverflow => 9
  | .unknownField => 10

/-- The number of a completion code (R253). -/
def Completion.code : Completion → Nat
  | .success => 0
  | .timeout => 1
  | .disconnected => 2
  | .rejected => 3

/-- The number of a `HOST` error result (R253). -/
def HostError.code : HostError → Nat
  | .queueFull => 1
  | .pendingQueueFull => 2
  | .disconnected => 3
  | .rejected => 4
  | .badOp => 15

/-- The disconnect reasons the source names (R254). -/
def reasonNormal : BitVec 3 := 0
/-- See `reasonNormal`. -/
def reasonNoPermission : BitVec 3 := 1
/-- See `reasonNormal`. -/
def reasonTimeout : BitVec 3 := 2
/-- See `reasonNormal`. -/
def reasonIoError : BitVec 3 := 3
/-- See `reasonNormal`. -/
def reasonBootloaderOnly : BitVec 3 := 4

/-- Register 0, `STATUS`: `link_up`, `timer_armed`, `rx_esc`, `rx_drop`, `rx_ovf` from bit 0 up (R47). -/
def statusReg (s : State) : BitVec 16 :=
  BitVec.ofNat 16 (s.linkUp.toNat + 2 * s.timerArmed.toNat + 4 * s.rxEsc.toNat +
    8 * s.rxDrop.toNat + 16 * s.rxOvf.toNat)

/-- Register 9, `PTRS`: `wr_ptr` in bits 4:0, `snd_ptr` in bits 12:8 (R47). -/
def ptrsReg (s : State) : BitVec 16 := BitVec.ofNat 16 (s.wrPtr.val + 256 * s.sndPtr.val)

/-- The value of read-out register `n`, 0 for every number outside the table (R47, R240). A count
fills its own bits only: "Fields not listed read as 0" (R47). -/
def readCsr (s : State) (n : Byte) : BitVec 16 :=
  if n = 0 then statusReg s
  else if n = 1 then word16 s.devStatus1 s.devStatus0
  else if n = 2 then s.seqCtr.setWidth 16
  else if n = 3 then s.failCtr.setWidth 16
  else if n = 4 then BitVec.ofNat 16 (inflight s % 4)
  else if n = 5 then BitVec.ofNat 16 (nonfreeCount s % 64)
  else if n = 6 then BitVec.ofNat 16 (s.pqCnt % 32)
  else if n = 7 then s.lastPerr.setWidth 16
  else if n = 8 then BitVec.ofNat 16 s.rxLen
  else if n = 9 then ptrsReg s
  else 0

end Sys2Proof.Machine
end

