-- ==== Sys2Proof/Machine/FrameCodec.lean ====
section
/-! DEFINITION. The Frame Codec (40_frame_codec.md): the encoder `FC.ENC` and the nine receiver steps
`FEED.*`. -/

namespace Sys2Proof.Machine

/-- One turn of the encoder's loop: the sum and the output so far, and the next payload byte (R123). -/
def fcEncodeByte (acc : BitVec 16 × List Byte) (b : Byte) : BitVec 16 × List Byte :=
  (acc.1 + b.setWidth 16, acc.2 ++ escByte b)

/-- The wire frame of a payload (R123). -/
def fcEncode (p : List Byte) : List Byte :=
  let acc := p.foldl fcEncodeByte (0, [MARK])
  let c := ~~~acc.1 + 1
  acc.2 ++ escByte (lowByte c) ++ escByte (highByte c) ++ [MARK]

/-- `FC.ENC` (R123, R241): the wire bytes are returned, not sent. -/
def execFcEnc (p : List Byte) (s : State) : Host.Outcome State Fault Refusal :=
  .next (respond (.bytes (fcEncode p)) s)

/-- `rx_append(v)` (R122). -/
def rxAppend (v : Byte) (s : State) : State :=
  if s.rxLen < s.cfg.rxCap then
    { s with rxb := memWrite s.rxb s.rxLen v, rxLen := s.rxLen + 1 }
  else { s with rxOvf := true }

/-- A receiver step that delivers nothing ends (R125). -/
def fedNothing (s : State) : Host.Outcome State Fault Refusal := .next (respond (.fed none) s)

/-- `FEED.RESYNC` (R133). -/
def execFeedResync (_esc : Bool) (s : State) : Host.Outcome State Fault Refusal :=
  fedNothing { s with rxDrop := false, rxEsc := false, rxLen := 0 }

/-- `FEED.SKIP` (R134). -/
def execFeedSkip (_esc : Bool) (_b : Byte) (s : State) : Host.Outcome State Fault Refusal :=
  fedNothing s

/-- `FEED.FLUSH` (R126). -/
def execFeedFlush (s : State) : Host.Outcome State Fault Refusal :=
  fedNothing { s with rxLen := 0, rxEsc := false }

/-- The content of the closing frame: the first `rx_len - 2` bytes (R127). -/
def frameContent (s : State) : List Byte := memReadRange s.rxb 0 (s.rxLen - 2)

/-- The received trailer, low byte first (R64, R127). -/
def frameTrailer (s : State) : BitVec 16 :=
  word16 (memRead s.rxb (s.rxLen - 1)) (memRead s.rxb (s.rxLen - 2))

/-- `FEED.END` (R127). An `rx_len` above `RX_CAP`, which no reachable state has (R49 (a)), would read
offsets that are no addresses (R61): a fault. -/
def execFeedEnd (s : State) : Host.Outcome State Fault Refusal :=
  if 2 ≤ s.rxLen then
    if s.rxLen ≤ s.cfg.rxCap then
      if crc (frameContent s) = frameTrailer s then
        .next (respond (.fed (some (frameContent s))) { s with rxLen := 0 })
      else fedNothing { s with rxLen := 0 }
    else .fault (.rxbOffset s.rxLen)
  else fedNothing { s with rxLen := 0 }

/-- `FEED.ESC` (R128). -/
def execFeedEsc (_esc : Bool) (s : State) : Host.Outcome State Fault Refusal :=
  fedNothing { s with rxEsc := true }

/-- `FEED.TMARK` (R129). -/
def execFeedTmark (s : State) : Host.Outcome State Fault Refusal :=
  fedNothing (rxAppend MARK { s with rxEsc := false })

/-- `FEED.TESC` (R130). -/
def execFeedTesc (s : State) : Host.Outcome State Fault Refusal :=
  fedNothing (rxAppend ESCB { s with rxEsc := false })

/-- `FEED.BADESC` (R131); the byte itself is discarded. -/
def execFeedBadesc (_b : Byte) (s : State) : Host.Outcome State Fault Refusal :=
  fedNothing { s with rxLen := 0, rxEsc := false, rxDrop := true }

/-- `FEED.DATA` (R132). -/
def execFeedData (b : Byte) (s : State) : Host.Outcome State Fault Refusal :=
  fedNothing (rxAppend b s)

/-- Performs the selected receiver step (R125). -/
def feedStep : FeedSel → State → Host.Outcome State Fault Refusal
  | .resync e, s => execFeedResync e s
  | .skip e b, s => execFeedSkip e b s
  | .flush, s => execFeedFlush s
  | .endFrame, s => execFeedEnd s
  | .esc e, s => execFeedEsc e s
  | .tmark, s => execFeedTmark s
  | .tesc, s => execFeedTesc s
  | .badesc b, s => execFeedBadesc b s
  | .data b, s => execFeedData b s

/-- `feed(b)`: "select the step, perform it, return what it returns" (R125). -/
def feed (b : Byte) (s : State) : Host.Outcome State Fault Refusal :=
  feedStep (selectFeed (feedKey s b)) s

/-- What a receiver step returned: none or the delivered payload (R125). -/
def delivered (s : State) : Option (List Byte) :=
  match s.resp with
  | .fed r => r
  | _ => none

/-- Feeds bytes in order; the state after the last and what each step returned, or none if a step
stops. -/
def feedAll : List Byte → State → Option (State × List (Option (List Byte)))
  | [], s => some (s, [])
  | b :: bs, s =>
    match feed b s with
    | .next s1 =>
      match feedAll bs s1 with
      | some (s2, rs) => some (s2, delivered s1 :: rs)
      | none => none
    | .fault _ => none
    | .refused _ => none

end Sys2Proof.Machine
end

