-- ==== Sys2Proof/Machine/CommandCodec.lean ====
section
/-! DEFINITION. The Command Codec (41_command_codec.md): `CC.DEC` with its field steps `DEC.*`, and
`CC.ENC` with its field steps `ENC.*`; and the test of a configuration (00_scope.md rule R13). -/

namespace Sys2Proof.Machine

/-- A field is decoded: its value is appended, the cursor moves, the descriptor index advances by 1
(R26 (a)). -/
def fieldDone (v : FieldVal) (cur : Nat) (k : DecWork) : DecWork :=
  { k with fields := k.fields ++ [v], cur := cur, di := k.di + 1 }

/-- `dec_scalar(w)` (R143), with the status-report zero-fill shim. -/
def decScalar (c : Config) (w : Width) (k : DecWork) : Except ParseError DecWork :=
  if k.cur + w.bytes > k.buf.length then
    if k.id = c.idStatusReport then .ok (fieldDone (.scalar w 0) k.buf.length k)
    else .error .charFieldOverflow
  else
    .ok (fieldDone (.scalar w (BitVec.ofNat w.bits (unle (slice k.buf k.cur w.bytes))))
      (k.cur + w.bytes) k)

/-- The bytes of a string field, terminator excluded (R148). -/
def strBytes (k : DecWork) : List Byte := (k.buf.drop k.cur).takeWhile (fun b => b != 0x00)

/-- `DEC.STR`'s body (R148). -/
def decString (k : DecWork) : Except ParseError DecWork :=
  let j := k.cur + (strBytes k).length
  if j ≥ k.buf.length then .error .readOverflow
  else .ok (fieldDone (.cstr (strBytes k)) (j + 1) k)

/-- The elements of a repeated-scalar field whose first element is at `off` (R149). -/
def repElems (w : Width) (buf : List Byte) : Nat → Nat → List (BitVec w.bits)
  | _, 0 => []
  | off, n + 1 => BitVec.ofNat w.bits (unle (slice buf off w.bytes)) :: repElems w buf (off + w.bytes) n

/-- `dec_rep(w)` (R149). -/
def decRep (w : Width) (k : DecWork) : Except ParseError DecWork :=
  match k.buf[k.cur]? with
  | none => .error .readOverflow
  | some b =>
    let count := b.toNat
    let cur := k.cur + 1
    if cur + count * w.bytes > k.buf.length then .error .readOverflow
    else .ok (fieldDone (.rep w (repElems w k.buf cur count)) (cur + count * w.bytes) k)

/-- `DEC.RAW`'s body (R153), its three tests in their order. -/
def decRawBuffer (c : Config) (k : DecWork) : Except ParseError DecWork :=
  if k.buf.length - k.cur < 2 then .error .dbufIncomplete
  else
    let len := unle (slice k.buf k.cur 2)
    let cur := k.cur + 2
    if len > k.buf.length - cur then .error .dbufLenLargerData
    else if len > c.maxPayload then .error .dbufLenTooLarge
    else .ok (fieldDone (.raw (slice k.buf cur len)) (cur + len) k)

/-- The decode step a descriptor character selects (R95, R154). -/
def decStep (c : Config) (ch : Byte) (k : DecWork) : Except ParseError DecWork :=
  match fieldKind ch with
  | some (.scalar w) => decScalar c w k
  | some .str => decString k
  | some (.rep w) => decRep w k
  | some .raw => decRawBuffer c k
  | none => .error .unknownField

/-- Step (6) of `CC.DEC`: the walk over the descriptor (R142). -/
def decWalk (c : Config) : List Byte → DecWork → Except ParseError DecWork
  | [], k => .ok k
  | ch :: desc, k =>
    match decStep c ch k with
    | .ok k1 => decWalk c desc k1
    | .error e => .error e

/-- Steps (6) and (7) of `CC.DEC`, from the given cursor (R142). -/
def decFields (c : Config) (desc buf : List Byte) (id seq status : Byte) (cur : Nat) :
    Except ParseError Command :=
  match decWalk c desc { buf := buf, id := id, cur := cur, di := 0, fields := [] } with
  | .ok k => .ok { id := id, seq := seq, status := status, fields := k.fields }
  | .error e => .error e

/-- `CC.DEC(B)` (R142), its tests in their order. -/
def ccDecode (c : Config) (buf : List Byte) : Except ParseError Command :=
  match buf with
  | id :: seq :: status :: _ =>
    match cmdEntry c id with
    | .unregistered => .error .unknownCommand
    | .noFields => .error .noFields
    | .fields desc =>
      if 5 ≤ buf.length then
        if unle (slice buf 3 2) ≠ buf.length then .error .wrongStoredLength
        else decFields c desc buf id seq status 5
      else decFields c desc buf id seq status 3
  | _ => .error .bufferTooSmall

/-- `CC.DEC` on `HOST` (R142, R241): it returns its result and changes nothing else. -/
def execCcDec (buf : List Byte) (s : State) : Host.Outcome State Fault Refusal :=
  match ccDecode s.cfg buf with
  | .ok cmd => .next (respond (.decoded cmd) s)
  | .error e => .next (respond (.parseErr e) s)

/-- A decode step by itself ends: its locals are kept, or it raises its error, which "only selects
the result" (R18). -/
def endDecStep (r : Except ParseError DecWork) (s : State) : Host.Outcome State Fault Refusal :=
  match r with
  | .ok k => .next (respond .none { s with decW := k })
  | .error e => .next (respond (.parseErr e) s)

/-- `DEC.S1` (R144). -/
def execDecS1 (s : State) : Host.Outcome State Fault Refusal :=
  endDecStep (decScalar s.cfg .w1 s.decW) s

/-- `DEC.S2` (R145). -/
def execDecS2 (s : State) : Host.Outcome State Fault Refusal :=
  endDecStep (decScalar s.cfg .w2 s.decW) s

/-- `DEC.S4` (R146). -/
def execDecS4 (s : State) : Host.Outcome State Fault Refusal :=
  endDecStep (decScalar s.cfg .w4 s.decW) s

/-- `DEC.S8` (R147). -/
def execDecS8 (s : State) : Host.Outcome State Fault Refusal :=
  endDecStep (decScalar s.cfg .w8 s.decW) s

/-- `DEC.STR` (R148). -/
def execDecStr (s : State) : Host.Outcome State Fault Refusal := endDecStep (decString s.decW) s

/-- `DEC.R1` (R149). -/
def execDecR1 (s : State) : Host.Outcome State Fault Refusal := endDecStep (decRep .w1 s.decW) s

/-- `DEC.R2` (R150). -/
def execDecR2 (s : State) : Host.Outcome State Fault Refusal := endDecStep (decRep .w2 s.decW) s

/-- `DEC.R4` (R151). -/
def execDecR4 (s : State) : Host.Outcome State Fault Refusal := endDecStep (decRep .w4 s.decW) s

/-- `DEC.R8` (R152). -/
def execDecR8 (s : State) : Host.Outcome State Fault Refusal := endDecStep (decRep .w8 s.decW) s

/-- `DEC.RAW` (R153). -/
def execDecRaw (s : State) : Host.Outcome State Fault Refusal :=
  endDecStep (decRawBuffer s.cfg s.decW) s

/-- `DEC.BAD` (R154): "An unrecognized field-type character fails `UnknownField`." -/
def execDecBad (_ch : Byte) (s : State) : Host.Outcome State Fault Refusal :=
  endDecStep (.error .unknownField) s

/-- `put(add)` (R141); a field is written and the descriptor index advances by 1 (R26 (a)). None is
`fail`. -/
def put (add : List Byte) (k : EncWork) : Option EncWork :=
  if k.out.length + add.length > k.maxLen then none
  else some { k with out := k.out ++ add, di := k.di + 1 }

/-- The body of `ENC.S1` to `ENC.S8` (R161 to R164). -/
def encScalar (w : Width) (v : FieldVal) (k : EncWork) : Option EncWork :=
  match v with
  | .scalar w' _ => if w' = w then put (fieldBytes v) k else none
  | .cstr _ => none
  | .rep _ _ => none
  | .raw _ => none

/-- `ENC.STR`'s body (R165). -/
def encString (v : FieldVal) (k : EncWork) : Option EncWork :=
  match v with
  | .cstr _ => put (fieldBytes v) k
  | .scalar _ _ => none
  | .rep _ _ => none
  | .raw _ => none

/-- `enc_rep(w)` (R166). -/
def encRep (w : Width) (v : FieldVal) (k : EncWork) : Option EncWork :=
  match v with
  | .rep w' xs => if w' = w then (if xs.length > 255 then none else put (fieldBytes v) k) else none
  | .scalar _ _ => none
  | .cstr _ => none
  | .raw _ => none

/-- `ENC.RAW`'s body (R170). -/
def encRawBuffer (c : Config) (v : FieldVal) (k : EncWork) : Option EncWork :=
  match v with
  | .raw bs => if bs.length > c.maxPayload then none else put (fieldBytes v) k
  | .scalar _ _ => none
  | .cstr _ => none
  | .rep _ _ => none

/-- The encode step a descriptor character selects (R95, R171). -/
def encStep (c : Config) (ch : Byte) (v : FieldVal) (k : EncWork) : Option EncWork :=
  match fieldKind ch with
  | some (.scalar w) => encScalar w v k
  | some .str => encString v k
  | some (.rep w) => encRep w v k
  | some .raw => encRawBuffer c v k
  | none => none

/-- Steps (6) and (7) of `CC.ENC`: the walk over the descriptor and the fields, which must be equally
many (R160). -/
def encWalk (c : Config) : List Byte → List FieldVal → EncWork → Option EncWork
  | [], [], k => some k
  | ch :: desc, v :: vs, k =>
    match encStep c ch v k with
    | some k1 => encWalk c desc vs k1
    | none => none
  | [], _ :: _, _ => none
  | _ :: _, [], _ => none

/-- Step (8) of `CC.ENC`: `MemWrite(out:3, 2, le_2(len(out)))` (R160). -/
def backPatch (out : List Byte) : List Byte :=
  out.take 3 ++ leBytes 2 out.length ++ out.drop 5

/-- `CC.ENC(cmd, max_len)` (R160): the empty list is the failure. -/
def ccEncode (c : Config) (cmd : Command) (maxLen : Nat) : List Byte :=
  if maxLen < 3 then []
  else if cmd.id = c.idAck then [cmd.id, cmd.seq, cmd.status]
  else
    match cmdEntry c cmd.id with
    | .fields desc =>
      if maxLen < 5 then []
      else
        match encWalk c desc cmd.fields
            { out := [cmd.id, cmd.seq, cmd.status, 0x00, 0x00], maxLen := maxLen, di := 0 } with
        | some k => backPatch k.out
        | none => []
    | .unregistered => []
    | .noFields => []

/-- `CC.ENC` on `HOST` (R160, R241). -/
def execCcEnc (cmd : Command) (maxLen : BitVec 16) (s : State) : Host.Outcome State Fault Refusal :=
  .next (respond (.bytes (ccEncode s.cfg cmd maxLen.toNat)) s)

/-- An encode step by itself ends: its locals are kept, or `fail` gives the empty list (R140). -/
def endEncStep (r : Option EncWork) (s : State) : Host.Outcome State Fault Refusal :=
  match r with
  | some k => .next (respond .none { s with encW := k })
  | none => .next (respond (.bytes []) s)

/-- `ENC.S1` (R161). -/
def execEncS1 (v : FieldVal) (s : State) : Host.Outcome State Fault Refusal :=
  endEncStep (encScalar .w1 v s.encW) s

/-- `ENC.S2` (R162). -/
def execEncS2 (v : FieldVal) (s : State) : Host.Outcome State Fault Refusal :=
  endEncStep (encScalar .w2 v s.encW) s

/-- `ENC.S4` (R163). -/
def execEncS4 (v : FieldVal) (s : State) : Host.Outcome State Fault Refusal :=
  endEncStep (encScalar .w4 v s.encW) s

/-- `ENC.S8` (R164). -/
def execEncS8 (v : FieldVal) (s : State) : Host.Outcome State Fault Refusal :=
  endEncStep (encScalar .w8 v s.encW) s

/-- `ENC.STR` (R165). -/
def execEncStr (v : FieldVal) (s : State) : Host.Outcome State Fault Refusal :=
  endEncStep (encString v s.encW) s

/-- `ENC.R1` (R166). -/
def execEncR1 (v : FieldVal) (s : State) : Host.Outcome State Fault Refusal :=
  endEncStep (encRep .w1 v s.encW) s

/-- `ENC.R2` (R167). -/
def execEncR2 (v : FieldVal) (s : State) : Host.Outcome State Fault Refusal :=
  endEncStep (encRep .w2 v s.encW) s

/-- `ENC.R4` (R168). -/
def execEncR4 (v : FieldVal) (s : State) : Host.Outcome State Fault Refusal :=
  endEncStep (encRep .w4 v s.encW) s

/-- `ENC.R8` (R169). -/
def execEncR8 (v : FieldVal) (s : State) : Host.Outcome State Fault Refusal :=
  endEncStep (encRep .w8 v s.encW) s

/-- `ENC.RAW` (R170). -/
def execEncRaw (v : FieldVal) (s : State) : Host.Outcome State Fault Refusal :=
  endEncStep (encRawBuffer s.cfg v s.encW) s

/-- `ENC.BAD` (R171): `fail`, always. -/
def execEncBad (_ch : Byte) (s : State) : Host.Outcome State Fault Refusal := endEncStep none s

/-- A value is of the kind and width a descriptor character denotes and is a field value of R14. -/
def fieldFits (c : Config) (ch : Byte) (v : FieldVal) : Bool :=
  match fieldKind ch, v with
  | some (.scalar w), .scalar w' _ => w' == w
  | some .str, .cstr bs => bs.all (fun b => b != 0x00)
  | some (.rep w), .rep w' xs => w' == w && decide (xs.length ≤ 255)
  | some .raw, .raw bs => decide (bs.length ≤ c.maxPayload)
  | _, _ => false

/-- "`fields` has one value per character, of the kind and width that character denotes" (R14). -/
def fieldsFit (c : Config) : List Byte → List FieldVal → Bool
  | [], [] => true
  | ch :: desc, v :: vs => fieldFits c ch v && fieldsFit c desc vs
  | [], _ :: _ => false
  | _ :: _, [] => false

/-- A Command is well-typed (R14). -/
def wellTyped (c : Config) (cmd : Command) : Bool :=
  match cmdEntry c cmd.id with
  | .fields desc => fieldsFit c desc cmd.fields
  | .unregistered => false
  | .noFields => false

/-- An id is registered, with or without a descriptor (R12). -/
def registered (c : Config) (id : Byte) : Bool := cmdEntry c id != .unregistered

/-- One of the Scheduler's own commands is as R13 (c) asks. -/
def internalCmdOk (c : Config) (cmd : Command) : Bool :=
  cmd.id != c.idAck && wellTyped c cmd && ccEncode c cmd c.txMax != []

/-- A descriptor holds at most one raw-buffer character: R13 (a) is followed, DEDUCED, where U22 of
93_implementation_defined.md and N28 of 91_not_in_source.md accept such a descriptor (log 30). -/
def oneRawBuffer (c : Config) (id : Byte) : Bool :=
  match cmdEntry c id with
  | .fields desc => decide (desc.count (kindCode .raw) ≤ 1)
  | .unregistered => true
  | .noFields => true

/-- The parameters are within the constraints of R12 and R13, and `RX_CAP` fits the register `RXLEN`
(R47; log 21). -/
def configOk (c : Config) : Bool :=
  decide (2 ≤ c.rxCap ∧ c.rxCap ≤ 65535 ∧
    5 ≤ c.txMax ∧ c.txMax ≤ 65535 ∧ c.maxPayload ≤ 65535 ∧
    c.tTimeout < 2 ^ 31 ∧ c.tKaIdle < 2 ^ 31 ∧ c.tKaStall < 2 ^ 31 ∧
    c.tTick < 2 ^ 31 ∧ c.maxRetries ≤ 255 ∧
    1 ≤ c.failThreshold ∧ c.failThreshold ≤ 255 ∧
    c.cmdTable.all (fun r => oneRawBuffer c r.id) = true ∧
    registered c c.idAck = true ∧ registered c c.idStatusReport = true ∧
    internalCmdOk c c.keepalive = true ∧ internalCmdOk c c.fetchConfirm = true ∧
    internalCmdOk c c.fetchInd = true)

end Sys2Proof.Machine
end

