-- ==== Sys2Proof/Machine/Queue.lean ====
section
/-! DEFINITION. The Scheduler's queues (42_scheduler_queue.md): `SQ.SEQ`, `SQ.ENQ`, `PQ.PUSH`,
`SQ.KILL`. -/

namespace Sys2Proof.Machine

/-- The loop of `SQ.SEQ`: the first value from `n` on that no non-free item holds (R183). At most 32
of the 256 values are held, so 255 further increments are never used up. -/
def seqSearch (s : State) : Nat → Byte → Byte
  | 0, n => n
  | fuel + 1, n => if seqInUse s n then seqSearch s fuel (n + 1) else n

/-- The sequence number `SQ.SEQ` hands out (R183). -/
def nextSeq (s : State) : Byte := seqSearch s 255 (s.seqCtr + 1)

/-- `SQ.SEQ`'s effect: "writes `seq_ctr` only" (R183). -/
def allocSeq (s : State) : State := { s with seqCtr := nextSeq s }

/-- `SQ.SEQ` (R183). -/
def execSqSeq (s : State) : Host.Outcome State Fault Refusal :=
  .next (respond (.seqNum (nextSeq s)) (allocSeq s))

/-- The item an enqueue creates (R185). -/
def newItem (cmd : Command) (seq : Byte) (target : Option Dest) (now : Time) : QueueItem :=
  { state := .waitSend, cmd := { cmd with seq := seq }, retries := 0, tTx := now, target := target }

/-- `was_idle` (R185). -/
def wasIdle (s : State) : Bool := !anyWaitSend s && decide (inflight s < window)

/-- The admission test: the command encodes within `TX_MAX`, tested with `seq = 0` (R185). -/
def encodes (s : State) (cmd : Command) : Bool :=
  ccEncode s.cfg { cmd with seq := 0 } s.cfg.txMax != []

/-- The writes of `enq_core` once slot `j` is chosen and the command admitted (R185). -/
def enqWrite (j : Fin 32) (cmd : Command) (target : Option Dest) (now : Time) (s : State) : State :=
  let s1 := allocSeq s
  let s2 := { setItem j (newItem cmd s1.seqCtr target now) s1 with wrPtr := j + 1 }
  if wasIdle s then armTimer now s2 else s2

/-- `enq_core(cmd, target, now)` (R185). -/
def enqCore (cmd : Command) (target : Option Dest) (now : Time) (s : State) :
    State × Except HostError (Fin 32) :=
  match findFree s with
  | none => (s, .error .queueFull)
  | some j =>
    if encodes s cmd then (enqWrite j cmd target now s, .ok j) else (s, .error .rejected)

/-- `SQ.ENQ` (R184). -/
def execSqEnq (cmd : Command) (t : Nat) (now : Time) (s : State) : Host.Outcome State Fault Refusal :=
  if s.linkUp then
    match enqCore cmd (some (.ext (targetPort s.cfg t))) now s with
    | (s1, .ok j) => .next (respond (.okSlot j) s1)
    | (s1, .error e) =>
      if e = .rejected then
        .next (respond (.err e) (emit (.done (.ext (targetPort s.cfg t)) .rejected none) s1))
      else .next (respond (.err e) s1)
  else .next (respond (.err .disconnected) s)

/-- The entry is written behind the last one (R40, R188). -/
def pqPut (r : Nat) (s : State) : State :=
  { s with pq := s.pq.set (pqIndex s s.pqCnt) r, pqCnt := s.pqCnt + 1 }

/-- `PQ.PUSH` (R188). -/
def execPqPush (r : Nat) (s : State) : Host.Outcome State Fault Refusal :=
  if s.linkUp then
    if s.pqCnt = pqCap then .next (respond (.err .pendingQueueFull) s)
    else .next (respond .ok (pqPut (reqIdPort s.cfg r) s))
  else .next (respond (.err .disconnected) s)

/-- One turn of the slot loop of `SQ.KILL` (R190). -/
def killSlot (s : State) (i : Fin 32) : State :=
  if free s i then s
  else setItemState i .init (emitDone s.cq[i].target .disconnected none s)

/-- One turn of the pending-request loop of `SQ.KILL` (R190). -/
def killRequest (s : State) (r : Nat) : State := emit (.done (.bulk r) .disconnected none) s

/-- `SQ.KILL`'s effect: slots 0 to 31, then the pending requests oldest first (R190). -/
def killAll (s : State) : State :=
  { (pqContent s).foldl killRequest (slots.foldl killSlot s) with
    pqCnt := 0, pqRd := 0, wrPtr := 0, sndPtr := 0 }

/-- `SQ.KILL` (R190). -/
def execSqKill (s : State) : Host.Outcome State Fault Refusal := .next (respond .none (killAll s))

end Sys2Proof.Machine
end

