-- ==== Sys2Proof/Machine/Service.lean ====
section
/-! DEFINITION. The Scheduler's service tick and inbound dispatch (43_scheduler_service.md): `SQ.TICK`,
`TICK.SWEEP`, `TICK.GEN`, `TICK.SEND`, `TICK.REARM`, `SQ.DISP`. -/

namespace Sys2Proof.Machine

/-- `retry(i)` (R202). -/
def retryItem (i : Fin 32) (s : State) : State :=
  setItem i { s.cq[i] with retries := s.cq[i].retries + 1, state := .waitSend } s

/-- The consecutive-failure counter one higher, saturating at 255 (R39, R203). -/
def failCtrUp (n : BitVec 8) : BitVec 8 := if n.toNat < 255 then n + 1 else n

/-- The expiry that finds the counter at `n` is the one "that makes `fail_ctr` equal to
`FAIL_THRESHOLD`" (R203): a saturated counter becomes equal to nothing (R39, D28, U19; log 18). -/
def crossesThreshold (c : Config) (n : BitVec 8) : Bool :=
  decide (n.toNat < 255 ∧ n.toNat + 1 = c.failThreshold)

/-- A failure is counted, and `TeardownReq` emitted when the counter reaches the threshold (R203). -/
def countFailure (s : State) : State :=
  let s1 := { s with failCtr := failCtrUp s.failCtr }
  if crossesThreshold s.cfg s.failCtr then emit .teardownReq s1 else s1

/-- `expire(i)` (R203). -/
def expireItem (i : Fin 32) (s : State) : State :=
  countFailure (emitDone s.cq[i].target .timeout none (setItemState i .init s))

/-- The item is in `WaitConfirm` and its age exceeds the timeout, strictly (R201). -/
def timedOut (now : Time) (s : State) (i : Fin 32) : Bool :=
  s.cq[i].state == .waitConfirm && decide (age now s.cq[i].tTx > s.cfg.tTimeout)

/-- One turn of the loop of `TICK.SWEEP` (R201). -/
def sweepSlot (now : Time) (s : State) (i : Fin 32) : State :=
  if timedOut now s i then
    if s.cq[i].retries.toNat < s.cfg.maxRetries then retryItem i s else expireItem i s
  else s

/-- `TICK.SWEEP`'s effect (R201). -/
def sweep (now : Time) (s : State) : State := slots.foldl (sweepSlot now) s

/-- `TICK.SWEEP` (R201). -/
def execTickSweep (now : Time) (s : State) : Host.Outcome State Fault Refusal :=
  .next (respond .none (sweep now s))

/-- `ka_due` (R204). -/
def keepaliveDue (now : Time) (s : State) : Bool :=
  decide (age now s.tLastTx ≥ s.cfg.tKaIdle) ||
    (decide (inflight s = window) && decide (age now s.tLastConfirm ≥ s.cfg.tKaStall))

/-- `ds_confirm_pending(dev_status)` (R38). -/
def dsConfirmPending (s : State) : Bool := holdsOn s.cfg.confirmPending s.devStatus0 s.devStatus1
/-- `ds_indication_pending(dev_status)` (R38). -/
def dsIndicationPending (s : State) : Bool := holdsOn s.cfg.indicationPending s.devStatus0 s.devStatus1
/-- `ds_free_slot(dev_status)` (R38). -/
def dsFreeSlot (s : State) : Bool := holdsOn s.cfg.freeSlot s.devStatus0 s.devStatus1
/-- `ds_joined(dev_status)` (R38). -/
def dsJoined (s : State) : Bool := holdsOn s.cfg.joined s.devStatus0 s.devStatus1

/-- `gen_fetch(now)` (R205). -/
def genFetch (now : Time) (s : State) : State :=
  if dsConfirmPending s && !queued s s.cfg.fetchConfirm.id then
    (enqCore s.cfg.fetchConfirm none now s).1
  else if dsIndicationPending s && !queued s s.cfg.fetchInd.id then
    (enqCore s.cfg.fetchInd none now s).1
  else s

/-- The oldest pending request is popped (R40, R206). -/
def pqPop (s : State) : State := { s with pqRd := s.pqRd + 1, pqCnt := s.pqCnt - 1 }

/-- The request popped for `resolve` fails: `Done(Bulk(r), Rejected, none)` (R206). -/
def rejectBulk (r : Nat) (s : State) : State := emit (.done (.bulk r) .rejected none) s

/-- `gen_bulk(now)`, with the answer of `resolve` for the popped request (R206; log 14). -/
def genBulk (now : Time) (answer : Option Command) (s : State) : State :=
  let r := s.pq[s.pqRd]
  match answer with
  | none => rejectBulk r (pqPop s)
  | some c =>
    match enqCore c (some (.bulk r)) now (pqPop s) with
    | (s1, .ok _) => s1
    | (s1, .error _) => rejectBulk r s1

/-- `TICK.GEN`'s effect (R204). -/
def generate (now : Time) (answer : Option Command) (s : State) : State :=
  if keepaliveDue now s && !queued s s.cfg.keepalive.id then (enqCore s.cfg.keepalive none now s).1
  else if dsConfirmPending s || dsIndicationPending s then genFetch now s
  else if dsJoined s && dsFreeSlot s && decide (0 < s.pqCnt) && (findFree s).isSome then
    genBulk now answer s
  else s

/-- `TICK.GEN` (R204). -/
def execTickGen (now : Time) (answer : Option Command) (s : State) :
    Host.Outcome State Fault Refusal :=
  .next (respond .none (generate now answer s))

/-- The item the send step considers: the first in `WaitSend` scanning from `snd_ptr` (R208). -/
def oldestWaiting (s : State) : Option (Fin 32) :=
  (slotsFrom s.sndPtr).find? (fun j => s.cq[j].state == .waitSend)

/-- The frame of an item's command: `FC.ENC(CC.ENC(cmd, TX_MAX))` (R103 `send`, R208). -/
def itemFrame (s : State) (j : Fin 32) : List Byte :=
  fcEncode (ccEncode s.cfg s.cq[j].cmd s.cfg.txMax)

/-- The item is handed to the Transport (R208). -/
def transmit (now : Time) (j : Fin 32) (s : State) : State :=
  { setItem j { s.cq[j] with state := .waitConfirm, tTx := now } (sendBytes (itemFrame s j) s) with
    tLastTx := now, sndPtr := j + 1 }

/-- `TICK.SEND`'s effect (R208). -/
def sendOne (now : Time) (txOk : Bool) (s : State) : State :=
  match oldestWaiting s with
  | none => s
  | some j => if decide (inflight s < window) && txOk then transmit now j s else s

/-- `TICK.SEND` (R208). -/
def execTickSend (now : Time) (txOk : Bool) (s : State) : Host.Outcome State Fault Refusal :=
  .next (respond .none (sendOne now txOk s))

/-- `TICK.REARM`'s effect (R210). -/
def rearm (now : Time) (s : State) : State := armTimer (now + BitVec.ofNat 32 s.cfg.tTick) s

/-- `TICK.REARM` (R210). -/
def execTickRearm (now : Time) (s : State) : Host.Outcome State Fault Refusal :=
  .next (respond .none (rearm now s))

/-- `timer_armed = 1 and due(now, timer_due)`: the tick is enabled (R41, R200). -/
def tickEnabled (now : Time) (s : State) : Bool := s.timerArmed && due now s.timerDue

/-- The body of an enabled tick (R200). -/
def tickBody (now : Time) (txOk : Bool) (answer : Option Command) (s : State) : State :=
  rearm now (sendOne now txOk (generate now answer (sweep now (disarmTimer s))))

/-- `SQ.TICK` (R200): "Performed when not enabled it does nothing." -/
def execSqTick (now : Time) (txOk : Bool) (answer : Option Command) (s : State) :
    Host.Outcome State Fault Refusal :=
  if tickEnabled now s then .next (respond .none (tickBody now txOk answer s))
  else .next (respond .none s)

/-- The item an inbound Command confirms: in `WaitConfirm` with its id and sequence number (R211). -/
def confirms (cmd : Command) (s : State) (i : Fin 32) : Bool :=
  s.cq[i].state == .waitConfirm && s.cq[i].cmd.id == cmd.id && s.cq[i].cmd.seq == cmd.seq

/-- Step (1) of `SQ.DISP` (R211). -/
def confirmMatch (cmd : Command) (now : Time) (s : State) : State :=
  match slots.find? (confirms cmd s) with
  | none => s
  | some i =>
    emitDone s.cq[i].target .success (some cmd)
      { setItemState i .init s with failCtr := 0, tLastConfirm := now }

/-- `update_status(cmd)` (R212). -/
def updateStatus (cmd : Command) (s : State) : State :=
  match statusOf s.cfg cmd with
  | none => s
  | some (b0, b1) =>
    if b0 = s.devStatus0 ∧ b1 = s.devStatus1 then s
    else emit (.devStatusChanged b0 b1) { s with devStatus0 := b0, devStatus1 := b1 }

/-- `SQ.DISP`'s effect (R211). -/
def dispatch (cmd : Command) (now : Time) (s : State) : State :=
  emit (.commandInd cmd) (updateStatus cmd (confirmMatch cmd now s))

/-- `SQ.DISP` (R211). -/
def execSqDisp (cmd : Command) (now : Time) (s : State) : Host.Outcome State Fault Refusal :=
  .next (respond .none (dispatch cmd now s))

end Sys2Proof.Machine
end

