-- ==== Sys2Proof/Machine/Link.lean ====
section
/-! DEFINITION. The receive path, the link events and the system operations (44_link_and_system.md):
`RX.BYTE`, `EV.CONN`, `EV.DISC`, `SYS.RESET`, `SYS.CLRDIAG`, `SYS.RDCSR`. -/

namespace Sys2Proof.Machine

/-- Steps (3) to (5) of `RX.BYTE` for a delivered payload (R230). -/
def receive (p : List Byte) (now : Time) (s : State) : State :=
  match ccDecode s.cfg p with
  | .ok cmd => dispatch cmd now s
  | .error e => { s with lastPerr := e.code }

/-- `RX.BYTE` (R230). -/
def execRxByte (b : Byte) (now : Time) (s : State) : Host.Outcome State Fault Refusal :=
  if s.linkUp then
    match feed b s with
    | .next s1 =>
      match delivered s1 with
      | some p => .next (respond .none (receive p now s1))
      | none => .next (respond .none s1)
    | .fault f => .fault f
    | .refused r => .refused r
  else .next (respond .none s)

/-- The assignments of `EV.CONN` (R234). -/
def connect (now : Time) (s : State) : State :=
  { s with
    linkUp := true
    rxLen := 0, rxEsc := false, rxDrop := false, rxOvf := false
    lastPerr := 0
    devStatus0 := 0, devStatus1 := 0
    failCtr := 0
    tLastTx := now, tLastConfirm := now
    timerArmed := true, timerDue := now }

/-- `EV.CONN` (R234); ignored while the link is up. -/
def execEvConn (now : Time) (s : State) : Host.Outcome State Fault Refusal :=
  if s.linkUp then .next (respond .none s)
  else .next (respond .none (emit .connected (connect now s)))

/-- `EV.DISC` (R236). -/
def execEvDisc (reason : BitVec 3) (s : State) : Host.Outcome State Fault Refusal :=
  .next (respond .none
    (emit (.disconnected reason) { killAll (disarmTimer s) with linkUp := false }))

/-- `SYS.RESET` (R238): every item of state takes its reset value; the parameters are not state and
stay, as do the transfers the environment has yet to make (log 9). -/
def execSysReset (s : State) : Host.Outcome State Fault Refusal :=
  .next { State.reset with cfg := s.cfg, inbox := s.inbox }

/-- `SYS.CLRDIAG` (R239). -/
def execSysClrdiag (s : State) : Host.Outcome State Fault Refusal :=
  .next (respond .none { s with rxOvf := false, lastPerr := 0 })

/-- `SYS.RDCSR` (R240): "reading has no side effect and clears nothing". -/
def execSysRdcsr (n : Byte) (s : State) : Host.Outcome State Fault Refusal :=
  .next (respond (.value (readCsr s n)) s)

end Sys2Proof.Machine
end

