-- ==== Sys2Proof/Machine/Dispatch.lean ====
section
/-! DEFINITION. One arm per operation of the table: a direct call of its meaning. -/

namespace Sys2Proof.Machine

def exec (i : Instr) (s : State) : Host.Outcome State Fault Refusal :=
  match i with
  | .fcEnc p => Sys2Proof.Machine.execFcEnc p s
  | .feedResync esc => Sys2Proof.Machine.execFeedResync esc s
  | .feedSkip esc b => Sys2Proof.Machine.execFeedSkip esc b s
  | .feedFlush => Sys2Proof.Machine.execFeedFlush s
  | .feedEnd => Sys2Proof.Machine.execFeedEnd s
  | .feedEsc esc => Sys2Proof.Machine.execFeedEsc esc s
  | .feedTmark => Sys2Proof.Machine.execFeedTmark s
  | .feedTesc => Sys2Proof.Machine.execFeedTesc s
  | .feedBadesc b => Sys2Proof.Machine.execFeedBadesc b s
  | .feedData b => Sys2Proof.Machine.execFeedData b s
  | .ccDec buf => Sys2Proof.Machine.execCcDec buf s
  | .decS1 => Sys2Proof.Machine.execDecS1 s
  | .decS2 => Sys2Proof.Machine.execDecS2 s
  | .decS4 => Sys2Proof.Machine.execDecS4 s
  | .decS8 => Sys2Proof.Machine.execDecS8 s
  | .decStr => Sys2Proof.Machine.execDecStr s
  | .decR1 => Sys2Proof.Machine.execDecR1 s
  | .decR2 => Sys2Proof.Machine.execDecR2 s
  | .decR4 => Sys2Proof.Machine.execDecR4 s
  | .decR8 => Sys2Proof.Machine.execDecR8 s
  | .decRaw => Sys2Proof.Machine.execDecRaw s
  | .decBad ch => Sys2Proof.Machine.execDecBad ch s
  | .ccEnc cmd maxLen => Sys2Proof.Machine.execCcEnc cmd maxLen s
  | .encS1 v => Sys2Proof.Machine.execEncS1 v s
  | .encS2 v => Sys2Proof.Machine.execEncS2 v s
  | .encS4 v => Sys2Proof.Machine.execEncS4 v s
  | .encS8 v => Sys2Proof.Machine.execEncS8 v s
  | .encStr v => Sys2Proof.Machine.execEncStr v s
  | .encR1 v => Sys2Proof.Machine.execEncR1 v s
  | .encR2 v => Sys2Proof.Machine.execEncR2 v s
  | .encR4 v => Sys2Proof.Machine.execEncR4 v s
  | .encR8 v => Sys2Proof.Machine.execEncR8 v s
  | .encRaw v => Sys2Proof.Machine.execEncRaw v s
  | .encBad ch => Sys2Proof.Machine.execEncBad ch s
  | .sqSeq => Sys2Proof.Machine.execSqSeq s
  | .sqEnq cmd t now => Sys2Proof.Machine.execSqEnq cmd t now s
  | .pqPush r => Sys2Proof.Machine.execPqPush r s
  | .sqKill => Sys2Proof.Machine.execSqKill s
  | .sqTick now txOk answer => Sys2Proof.Machine.execSqTick now txOk answer s
  | .tickSweep now => Sys2Proof.Machine.execTickSweep now s
  | .tickGen now answer => Sys2Proof.Machine.execTickGen now answer s
  | .tickSend now txOk => Sys2Proof.Machine.execTickSend now txOk s
  | .tickRearm now => Sys2Proof.Machine.execTickRearm now s
  | .sqDisp cmd now => Sys2Proof.Machine.execSqDisp cmd now s
  | .rxByte b now => Sys2Proof.Machine.execRxByte b now s
  | .evConn now => Sys2Proof.Machine.execEvConn now s
  | .evDisc reason => Sys2Proof.Machine.execEvDisc reason s
  | .sysReset => Sys2Proof.Machine.execSysReset s
  | .sysClrdiag => Sys2Proof.Machine.execSysClrdiag s
  | .sysRdcsr n => Sys2Proof.Machine.execSysRdcsr n s

end Sys2Proof.Machine
end

