-- ==== Sys2Proof/Machine/Step.lean ====
section
/-! DEFINITION. One step: the next transfer of the environment takes effect (20_memory.md rule R72;
30_encoding.md rules R86, R99, R101; log 1). -/

namespace Sys2Proof.Machine

/-- The next transfer is taken and its operation performed. A reserved `HOST` op answers
`Err(BadOp)` and changes no state, a reserved `XPT` code is ignored (R101). With no transfer waiting
nothing happens (log 24). A configuration that breaks R13 is refused. -/
def step (s : State) : Host.Outcome State Fault Refusal :=
  if configOk s.cfg then
    match s.inbox with
    | [] => .next s
    | t :: rest =>
      match decode t with
      | .ok i => exec i { s with inbox := rest }
      | .error (.reservedHostOp _) => .next (respond (.err .badOp) { s with inbox := rest })
      | .error (.reservedXptCode _) => .next (respond .none { s with inbox := rest })
  else .refused .illFormedConfiguration

/-- The transfer a table word stands for is the next one (log 16); nothing else changes. A word that
stands for no transfer changes nothing. -/
def State.withFetchWord (s : State) (nbits w : Nat) : State :=
  match tableTransfer nbits w with
  | some t => { s with inbox := t :: s.inbox }
  | none => s

end Sys2Proof.Machine
end

