-- ==== Sys2Proof/Safety.lean ====
section
/-! DEFINITION. What a sound state of the block is (10_state.md rule R49 and the sentences its rules
rest on), in the terms the claims use; and the spec's formulas in the form
its rules print them, independent of the definitions the machine runs on. -/

namespace Sys2Proof.Safety

open Sys2Proof Sys2Proof.Machine

/-- Every transfer waiting is one the environment can make: "an operation marked sub is never selected
from outside" (R100). -/
def externalInbox (s : State) : Prop := ∀ t ∈ s.inbox, t.external = true

/-- `RXB` is in canonical form and lists no offset outside `[0, RX_CAP)` (R60, R61; log 5). -/
def memoryOk (s : State) : Prop := s.rxb.wf = true ∧ ∀ c ∈ s.rxb, c.1 < s.cfg.rxCap

/-- R49 (a), (b): the receiver stays inside its buffer, and while it drops a frame it holds nothing. -/
def receiverOk (s : State) : Prop :=
  s.rxLen ≤ s.cfg.rxCap ∧ (s.rxDrop = true → s.rxLen = 0 ∧ s.rxEsc = false)

/-- R49 (c): the in-flight bound. -/
def windowOk (s : State) : Prop := inflight s ≤ 2

/-- The slot holds an item (00_scope.md glossary: non-free). -/
def nonFree (s : State) (i : Fin 32) : Prop := s.cq[i].state ≠ .init

/-- R49 (d): no two non-free items hold the same sequence number. -/
def seqUnique (s : State) : Prop :=
  ∀ i j : Fin 32, nonFree s i → nonFree s j → s.cq[i].cmd.seq = s.cq[j].cmd.seq → i = j

/-- R49 (e): the PendingRequestQueue holds at most 16 entries. -/
def pendingOk (s : State) : Prop := s.pqCnt ≤ 16

/-- R49 (f), and the pointers "empty and zero since the last `EV.DISC` or reset" (R234). -/
def quietWhileDown (s : State) : Prop :=
  s.linkUp = false →
    (∀ i : Fin 32, s.cq[i].state = .init) ∧ s.pqCnt = 0 ∧ s.timerArmed = false ∧
      s.wrPtr = 0 ∧ s.sndPtr = 0 ∧ s.pqRd = 0

/-- "With the link up the timer is always armed" (R266). -/
def armedWhileUp (s : State) : Prop := s.linkUp = true → s.timerArmed = true

/-- R49 (g): no item has been retried more than `MAX_RETRIES` times. -/
def retriesOk (s : State) : Prop :=
  ∀ i : Fin 32, nonFree s i → s.cq[i].retries.toNat ≤ s.cfg.maxRetries

/-- R49 (h): every queued command encodes within `TX_MAX`. -/
def encodableOk (s : State) : Prop :=
  ∀ i : Fin 32, nonFree s i → ccEncode s.cfg s.cq[i].cmd s.cfg.txMax ≠ []

/-- A sound state: the configuration is well-formed, the environment keeps to its channels, and R49
holds. -/
def sound (s : State) : Prop :=
  configOk s.cfg = true ∧ externalInbox s ∧ memoryOk s ∧ receiverOk s ∧ windowOk s ∧ seqUnique s ∧
    pendingOk s ∧ quietWhileDown s ∧ armedWhileUp s ∧ retriesOk s ∧ encodableOk s

/-- `p` is the first of the slots `start, start + 1, ...` (modulo 32) with property `good`: it is `m`
places on and none before it has the property (R182, R208). -/
def firstFrom (start p : Fin 32) (good : Fin 32 → Prop) : Prop :=
  ∃ m : Nat, m < 32 ∧ p = start + Fin.ofNat 32 m ∧ good p ∧
    ∀ k : Nat, k < m → ¬ good (start + Fin.ofNat 32 k)

/-- The number `n` is held by a non-free item (R181 `seq_in_use`). -/
def seqHeld (s : State) (n : Byte) : Prop := ∃ i : Fin 32, nonFree s i ∧ s.cq[i].cmd.seq = n

/-- The item of a slot timed out: in `WaitConfirm` with an age above `T_TIMEOUT` (R201). -/
def agedOut (now : Time) (s : State) (i : Fin 32) : Prop :=
  s.cq[i].state = .waitConfirm ∧ (now - s.cq[i].tTx).toNat > s.cfg.tTimeout

/-- What `TICK.SWEEP` makes of one item (R201 to R203): untouched, sent back to `WaitSend` with one
more retry, or freed. -/
def sweptItem (now : Time) (c : Config) (q : QueueItem) : QueueItem :=
  if q.state = .waitConfirm ∧ (now - q.tTx).toNat > c.tTimeout then
    if q.retries.toNat < c.maxRetries then { q with retries := q.retries + 1, state := .waitSend }
    else { q with state := .init }
  else q

/-- The item is freed by the sweep (R201, R203): it timed out and its retries are used up. -/
def expires (now : Time) (c : Config) (q : QueueItem) : Bool :=
  decide (q.state = .waitConfirm) && decide ((now - q.tTx).toNat > c.tTimeout) &&
    decide (¬ q.retries.toNat < c.maxRetries)

/-- The `Done` event of an item's end, if it has a target other than `NONE` (R45). -/
def doneOf (code : Completion) (q : QueueItem) : Option Event :=
  q.target.map (fun d => .done d code none)

/-- The items of the queue in slot order. -/
def items (s : State) : List QueueItem := s.cq.toList

/-! ### Bytes and frames as the rules print them -/

/-- `le_N(v)`, by its formula: `le_N(v)[k] = (v / 2^(8k)) mod 256` (R16). -/
def littleEndian (n v : Nat) : List Byte :=
  (List.range n).map (fun k => BitVec.ofNat 8 (v / 256 ^ k))

/-- The two's complement of the 16-bit sum of the bytes, as a natural number (R15, R16, R121). -/
def checksum (p : List Byte) : Nat := (65536 - (p.map BitVec.toNat).sum % 65536) % 65536

/-- The wire form of one unescaped byte (R88). -/
def wireByte (b : Byte) : List Byte :=
  if b = 0xC0 then [0xDB, 0xDC] else if b = 0xDB then [0xDB, 0xDD] else [b]

/-- The unescaped content of a frame: the payload, then the checksum's low and high byte (R87). -/
def frameBytes (p : List Byte) : List Byte :=
  p ++ [BitVec.ofNat 8 (checksum p), BitVec.ofNat 8 (checksum p / 256)]

/-- The wire frame of a payload (R87). -/
def wireFrame (p : List Byte) : List Byte := [0xC0] ++ (frameBytes p).flatMap wireByte ++ [0xC0]

/-- The first `n` bytes of `RXB`. -/
def rxBytes (s : State) (n : Nat) : List Byte := (List.range n).map (memRead s.rxb)

/-- The 16-bit value the last two buffer bytes hold (R64, R92). -/
def rxTrailer (s : State) : Nat :=
  (memRead s.rxb (s.rxLen - 1)).toNat * 256 + (memRead s.rxb (s.rxLen - 2)).toNat

/-- The buffer holds a frame with a good checksum (R82). -/
def frameGood (s : State) : Prop :=
  2 ≤ s.rxLen ∧ checksum (rxBytes s (s.rxLen - 2)) = rxTrailer s

/-! ### Fields and commands as the rules print them -/

/-- The bytes of a field value in the command buffer (R91). -/
def fieldImage : FieldVal → List Byte
  | .scalar w v => littleEndian w.bytes v.toNat
  | .cstr bs => bs ++ [0x00]
  | .rep w xs => BitVec.ofNat 8 xs.length :: xs.flatMap (fun x => littleEndian w.bytes x.toNat)
  | .raw bs => littleEndian 2 bs.length ++ bs

/-- The number of those bytes (R172). -/
def fieldSize : FieldVal → Nat
  | .scalar w _ => w.bytes
  | .cstr bs => bs.length + 1
  | .rep w xs => 1 + xs.length * w.bytes
  | .raw bs => 2 + bs.length

/-- The encode step of a descriptor character takes a value (R161 to R171). -/
def stepTakes (c : Config) (ch : Byte) : FieldVal → Prop
  | .scalar w _ => fieldKind ch = some (.scalar w)
  | .cstr _ => fieldKind ch = some .str
  | .rep w xs => fieldKind ch = some (.rep w) ∧ xs.length ≤ 255
  | .raw bs => fieldKind ch = some .raw ∧ bs.length ≤ c.maxPayload

/-- The length of an encoded command other than the acknowledgment (R172). -/
def encodedSize (cmd : Command) : Nat := 5 + (cmd.fields.map fieldSize).sum

/-- The decode step of a scalar of that width (R95). -/
def decScalarInstr : Width → Instr
  | .w1 => .decS1
  | .w2 => .decS2
  | .w4 => .decS4
  | .w8 => .decS8

/-- The decode step of a repeated scalar of that width (R95). -/
def decRepInstr : Width → Instr
  | .w1 => .decR1
  | .w2 => .decR2
  | .w4 => .decR4
  | .w8 => .decR8

/-- The encode step of a scalar of that width (R95). -/
def encScalarInstr (v : FieldVal) : Width → Instr
  | .w1 => .encS1 v
  | .w2 => .encS2 v
  | .w4 => .encS4 v
  | .w8 => .encS8 v

/-- The encode step of a repeated scalar of that width (R95). -/
def encRepInstr (v : FieldVal) : Width → Instr
  | .w1 => .encR1 v
  | .w2 => .encR2 v
  | .w4 => .encR4 v
  | .w8 => .encR8 v

/-- The state after a decode step that read a field: the value appended, the cursor at `cur`, the
descriptor index one on (R26, R143). -/
def fieldRead (v : FieldVal) (cur : Nat) (s : State) : State :=
  { s with
    decW := { s.decW with fields := s.decW.fields ++ [v], cur := cur, di := s.decW.di + 1 }
    resp := .none }

/-- The state after an encode step that wrote bytes (R141). -/
def fieldWritten (add : List Byte) (s : State) : State :=
  { s with encW := { s.encW with out := s.encW.out ++ add, di := s.encW.di + 1 }, resp := .none }

/-! ### The Scheduler's effects as the rules print them -/

/-- A non-free item has the command id (R181 `queued`). -/
def idHeld (s : State) (id : Byte) : Prop := ∃ i : Fin 32, nonFree s i ∧ s.cq[i].cmd.id = id

/-- `SQ.SEQ` would hand out `n` in this state (R183). -/
def seqGiven (s : State) (n : Byte) : Prop :=
  exec .sqSeq s = .next { s with seqCtr := n, resp := .seqNum n }

/-- The state after an item with sequence number `n` is created in slot `j` (R185). -/
def itemCreated (j : Fin 32) (n : Byte) (cmd : Command) (target : Option Dest) (now : Time)
    (s : State) : State :=
  { s with
    seqCtr := n
    cq := s.cq.set j { state := .waitSend, cmd := { cmd with seq := n }, retries := 0, tTx := now,
                       target := target }
    wrPtr := j + 1
    timerArmed :=
      if (∀ i : Fin 32, s.cq[i].state ≠ .waitSend) ∧ inflight s < 2 then true else s.timerArmed
    timerDue :=
      if (∀ i : Fin 32, s.cq[i].state ≠ .waitSend) ∧ inflight s < 2 then now else s.timerDue }

/-- The events of a sweep that starts with the failure counter at `f` and frees these items in this
order: each gives its `Done` and, when it makes the counter equal to the threshold, `TeardownReq` (R203;
log 18). -/
def expiryEvents (threshold : Nat) : Nat → List QueueItem → List Event
  | _, [] => []
  | f, q :: qs =>
    (doneOf .timeout q).toList ++
      (if f < 255 ∧ f + 1 = threshold then [.teardownReq] else []) ++
      expiryEvents threshold (min 255 (f + 1)) qs

/-- The keep-alive is due (R204 `ka_due`). -/
def keepaliveWanted (now : Time) (s : State) : Prop :=
  (now - s.tLastTx).toNat ≥ s.cfg.tKaIdle ∨
    (inflight s = 2 ∧ (now - s.tLastConfirm).toNat ≥ s.cfg.tKaStall)

/-- The inbound Command confirms the item of the slot (R211). -/
def confirmsSlot (cmd : Command) (s : State) (i : Fin 32) : Prop :=
  s.cq[i].state = .waitConfirm ∧ s.cq[i].cmd.id = cmd.id ∧ s.cq[i].cmd.seq = cmd.seq

/-- The state after the confirmed item of slot `i` is freed (R211 step 1). -/
def itemConfirmed (i : Fin 32) (cmd : Command) (now : Time) (s : State) : State :=
  { s with
    cq := s.cq.set i { s.cq[i] with state := .init }
    failCtr := 0
    tLastConfirm := now
    ev := s.ev ++ (s.cq[i].target.map (fun d => Event.done d .success (some cmd))).toList }

/-- The moves of an item's state that an operation may make (R180). A whole tick is the sweep, the
generation and the send step in turn, so all that is left to say of it is that an item waiting to be
sent is not freed by it. -/
def mayMove : Instr → ItemState → ItemState → Prop
  | .sqTick _ _ _, a, b => ¬ (a = .waitSend ∧ b = .init)
  | .sqEnq _ _ _, a, b => a = b ∨ (a = .init ∧ b = .waitSend)
  | .tickGen _ _, a, b => a = b ∨ (a = .init ∧ b = .waitSend)
  | .tickSend _ _, a, b => a = b ∨ (a = .waitSend ∧ b = .waitConfirm)
  | .tickSweep _, a, b => a = b ∨ (a = .waitConfirm ∧ (b = .waitSend ∨ b = .init))
  | .sqDisp _ _, a, b => a = b ∨ (a = .waitConfirm ∧ b = .init)
  | .rxByte _ _, a, b => a = b ∨ (a = .waitConfirm ∧ b = .init)
  | .sqKill, _, b => b = .init
  | .evDisc _, _, b => b = .init
  | .sysReset, _, b => b = .init
  | .fcEnc _, a, b => a = b
  | .feedResync _, a, b => a = b
  | .feedSkip _ _, a, b => a = b
  | .feedFlush, a, b => a = b
  | .feedEnd, a, b => a = b
  | .feedEsc _, a, b => a = b
  | .feedTmark, a, b => a = b
  | .feedTesc, a, b => a = b
  | .feedBadesc _, a, b => a = b
  | .feedData _, a, b => a = b
  | .ccDec _, a, b => a = b
  | .decS1, a, b => a = b
  | .decS2, a, b => a = b
  | .decS4, a, b => a = b
  | .decS8, a, b => a = b
  | .decStr, a, b => a = b
  | .decR1, a, b => a = b
  | .decR2, a, b => a = b
  | .decR4, a, b => a = b
  | .decR8, a, b => a = b
  | .decRaw, a, b => a = b
  | .decBad _, a, b => a = b
  | .ccEnc _ _, a, b => a = b
  | .encS1 _, a, b => a = b
  | .encS2 _, a, b => a = b
  | .encS4 _, a, b => a = b
  | .encS8 _, a, b => a = b
  | .encStr _, a, b => a = b
  | .encR1 _, a, b => a = b
  | .encR2 _, a, b => a = b
  | .encR4 _, a, b => a = b
  | .encR8 _, a, b => a = b
  | .encRaw _, a, b => a = b
  | .encBad _, a, b => a = b
  | .sqSeq, a, b => a = b
  | .pqPush _, a, b => a = b
  | .tickRearm _, a, b => a = b
  | .evConn _, a, b => a = b
  | .sysClrdiag, a, b => a = b
  | .sysRdcsr _, a, b => a = b

/-- The `Done` events still owed to a target: one for each non-free item with that target and one for
each pending request it names (R189, R191). -/
def owed (d : Dest) (s : State) : Nat :=
  (items s).countP (fun q => decide (q.state ≠ .init ∧ q.target = some d)) +
    (pqContent s).countP (fun r => decide (Dest.bulk r = d))

/-- The event is a `Done` for the target. -/
def isDoneFor (d : Dest) : Event → Bool
  | .done target _ _ => decide (target = d)
  | .commandInd _ => false
  | .devStatusChanged _ _ => false
  | .connected => false
  | .disconnected _ => false
  | .teardownReq => false

/-- What is owed to a target and what it has received, together (R191). -/
def accounted (d : Dest) (s : State) : Nat := owed d s + s.ev.countP (isDoneFor d)

end Sys2Proof.Safety
end

