-- ==== Sys2Proof/Certificates/Slice0/Obligations.lean ====
section
/-! DEFINITION. The statements for the provers: what the spec's rules say the block does, in the terms of
Safety.lean and of the spec's own formulas. -/

open Sys2Proof Sys2Proof.Machine Sys2Proof.Safety

/-- A step is `exec` of the decoded operation (R72, R86); the transfer leaves the inbox, which is the model's
own field (log 1). -/
def Obligations.StepRunsTheDecodedOperation : Prop :=
  (∀ (s : State) (t : Transfer) (rest : List Transfer) (i : Instr),
    configOk s.cfg = true → s.inbox = t :: rest → decode t = .ok i → i.wellFormed = true →
      step s = exec i { s with inbox := rest }) ∧
  (∀ (t : Transfer) (i : Instr), decode t = .ok i → i.wellFormed = true)

/-- R101. -/
def Obligations.ReservedCodesChangeNothing : Prop :=
  ∀ (s : State) (rest : List Transfer), configOk s.cfg = true →
    (∀ (op : BitVec 5) (x : HostOperands) (now : Time),
      s.inbox = .host op x now :: rest → op.toNat ∉ [0x01, 0x02, 0x03, 0x04, 0x05, 0x08, 0x09, 0x0A] →
        step s = .next { s with inbox := rest, resp := .err .badOp }) ∧
    (∀ (code : BitVec 2) (reason : BitVec 3) (now : Time),
      s.inbox = .xpt code reason now :: rest → (code = 0 ∨ code = 3) →
        step s = .next { s with inbox := rest, resp := .none })

/-- No bit of an encoding is dropped (R93, R95, R99). -/
def Obligations.DecodingUndoesEncoding : Prop :=
  ∀ i : Instr, i.wellFormed = true → decode (encode i) = .ok i

/-- R93: the nine rows, each under the condition that no earlier row matches; the last clause says that every
word matches one. -/
def Obligations.ReceiverStepIsTheFirstMatchingRow : Prop :=
  (∀ (drop esc : Bool) (b : Byte),
    (feedWord drop esc b).getLsbD 9 = drop ∧ (feedWord drop esc b).getLsbD 8 = esc ∧
      (feedWord drop esc b).setWidth 8 = b) ∧
  (∀ (s : State) (b : Byte), feed b s = feedStep (selectFeed (feedWord s.rxDrop s.rxEsc b)) s) ∧
  (∀ k : BitVec 10,
    (k &&& 0x2FF = 0x2C0 → selectFeed k = .resync (k.getLsbD 8)) ∧
    (k &&& 0x2FF ≠ 0x2C0 → k &&& 0x200 = 0x200 →
      selectFeed k = .skip (k.getLsbD 8) (k.setWidth 8)) ∧
    (k &&& 0x200 ≠ 0x200 →
      (k &&& 0x3FF = 0x1C0 → selectFeed k = .flush) ∧
      (k &&& 0x3FF = 0x0C0 → selectFeed k = .endFrame) ∧
      (k &&& 0x2FF = 0x0DB → selectFeed k = .esc (k.getLsbD 8)) ∧
      (k &&& 0x3FF = 0x1DC → selectFeed k = .tmark) ∧
      (k &&& 0x3FF = 0x1DD → selectFeed k = .tesc) ∧
      (k &&& 0x3FF ∉ [0x1C0, 0x1DC, 0x1DD] → k &&& 0x2FF ≠ 0x0DB → k &&& 0x300 = 0x100 →
        selectFeed k = .badesc (k.setWidth 8)) ∧
      (k &&& 0x3FF ≠ 0x0C0 → k &&& 0x2FF ≠ 0x0DB → k &&& 0x300 = 0x000 →
        selectFeed k = .data (k.setWidth 8)))) ∧
  (∀ k : BitVec 10, k &&& 0x200 = 0x200 ∨ k &&& 0x300 = 0x100 ∨ k &&& 0x300 = 0x000)

/-- A sanity statement: words written out by hand from R93, R95 and R99. -/
def Obligations.WrittenWordsDecodeToTheirOperations : Prop :=
  decode (.feed 0b0011000000) = .ok .feedEnd ∧
  decode (.feed 0b0111011100) = .ok .feedTmark ∧
  decode (.feed 0b0001111111) = .ok (.feedData 0x7F) ∧
  decode (.feed 0b0100000101) = .ok (.feedBadesc 0x05) ∧
  decode (.host 0b01000 { HostOperands.zero with bytes := [0x40] } 0) = .ok (.fcEnc [0x40]) ∧
  decode (.host 0b01010 { HostOperands.zero with bytes := [0x07, 0x01] } 0) = .ok (.ccDec [0x07, 0x01]) ∧
  decode (.descDec 0b00110001) = .ok .decS1 ∧
  decode (.descDec 0b01110000) = .ok .decRaw ∧
  decode (.descEnc 0b01100010 (.rep .w2 [])) = .ok (.encR2 (.rep .w2 [])) ∧
  decode (.host 0b00001 { HostOperands.zero with target := 7 } 5) = .ok (.sqEnq Command.zero 7 5) ∧
  decode (.host 0b00010 { HostOperands.zero with reqId := 9 } 0) = .ok (.pqPush 9) ∧
  decode (.host 0b00011 { HostOperands.zero with reg := 9 } 0) = .ok (.sysRdcsr 9) ∧
  decode (.xpt 0b10 0b011 0) = .ok (.evDisc 3) ∧
  decode (.xpt 0b01 0 5) = .ok (.evConn 5)

/-- R95: the table of descriptor characters; "any other" denotes no field type. -/
def Obligations.DescriptorCharactersSelectTheirSteps : Prop :=
  (∀ (ch : Byte) (v : FieldVal), (ch, decode (.descDec ch), decode (.descEnc ch v), fieldKind ch) ∈
      [((0x31 : Byte), (.ok .decS1 : Except Reject Instr), (.ok (.encS1 v) : Except Reject Instr),
          some (FieldKind.scalar .w1)),
        (0x32, .ok .decS2, .ok (.encS2 v), some (.scalar .w2)),
        (0x34, .ok .decS4, .ok (.encS4 v), some (.scalar .w4)),
        (0x38, .ok .decS8, .ok (.encS8 v), some (.scalar .w8)),
        (0x73, .ok .decStr, .ok (.encStr v), some .str),
        (0x61, .ok .decR1, .ok (.encR1 v), some (.rep .w1)),
        (0x62, .ok .decR2, .ok (.encR2 v), some (.rep .w2)),
        (0x63, .ok .decR4, .ok (.encR4 v), some (.rep .w4)),
        (0x64, .ok .decR8, .ok (.encR8 v), some (.rep .w8)),
        (0x70, .ok .decRaw, .ok (.encRaw v), some .raw),
        (ch, .ok (.decBad ch), .ok (.encBad ch), none)]) ∧
  (∀ ch : Byte, fieldKind ch = none ↔
    ch ∉ [0x31, 0x32, 0x34, 0x38, 0x73, 0x61, 0x62, 0x63, 0x64, 0x70])

/-- R123, R87: `wireFrame` is the rule's formula over natural numbers; the machine keeps a 16-bit running sum. -/
def Obligations.FrameEncoderEmitsTheWireFrame : Prop :=
  ∀ (p : List Byte) (s : State),
    exec (.fcEnc p) s = .next { s with resp := .bytes (wireFrame p) }

/-- R124, R87, and what makes the marker a frame boundary. -/
def Obligations.FrameLengthAndMarkers : Prop :=
  ∀ p : List Byte,
    (fcEncode p).length = p.length + 4 + (frameBytes p).countP (fun b => b == 0xC0 || b == 0xDB) ∧
    p.length + 4 ≤ (fcEncode p).length ∧ (fcEncode p).length ≤ 2 * p.length + 6 ∧
    ∃ mid : List Byte, fcEncode p = [0xC0] ++ mid ++ [0xC0] ∧ (0xC0 : Byte) ∉ mid

/-- R126, R128, R131, R133, R134, each with the condition that selects it (R93). -/
def Obligations.ReceiverStepsThatOnlyChangeFlags : Prop :=
  ∀ s : State,
    (exec .feedFlush s = .next { s with rxLen := 0, rxEsc := false, resp := .fed none } ∧
      (s.rxDrop = false → s.rxEsc = true → feed 0xC0 s = exec .feedFlush s)) ∧
    (∀ e : Bool, exec (.feedEsc e) s = .next { s with rxEsc := true, resp := .fed none } ∧
      (s.rxDrop = false → feed 0xDB s = exec (.feedEsc e) s)) ∧
    (∀ b : Byte,
      exec (.feedBadesc b) s =
          .next { s with rxLen := 0, rxEsc := false, rxDrop := true, resp := .fed none } ∧
      (s.rxDrop = false → s.rxEsc = true → b ∉ [(0xC0 : Byte), 0xDB, 0xDC, 0xDD] →
        feed b s = exec (.feedBadesc b) s)) ∧
    (∀ e : Bool,
      exec (.feedResync e) s =
          .next { s with rxDrop := false, rxEsc := false, rxLen := 0, resp := .fed none } ∧
      (s.rxDrop = true → feed 0xC0 s = exec (.feedResync e) s)) ∧
    (∀ (e : Bool) (b : Byte), exec (.feedSkip e b) s = .next { s with resp := .fed none } ∧
      (s.rxDrop = true → b ≠ 0xC0 → feed b s = exec (.feedSkip e b) s))

/-- R122, R129, R130, R132. The canonical form of the memory (log 5) is an invariant, stated on its own. -/
def Obligations.ReceiverStepsThatStoreAByte : Prop :=
  ∀ s : State, s.rxb.wf = true → ∀ b : Byte,
    (∀ (i : Instr) (v : Byte) (e : Bool),
      (i, v, e) ∈ [(.feedData b, b, s.rxEsc), (.feedTmark, (0xC0 : Byte), false),
                   (.feedTesc, (0xDB : Byte), false)] →
        (s.rxLen < s.cfg.rxCap →
          ∃ m : Memory,
            exec i s =
                .next { s with rxb := m, rxLen := s.rxLen + 1, rxEsc := e, resp := .fed none } ∧
            memRead m s.rxLen = v ∧ ∀ a : Nat, a ≠ s.rxLen → memRead m a = memRead s.rxb a) ∧
        (¬ s.rxLen < s.cfg.rxCap →
          exec i s = .next { s with rxOvf := true, rxEsc := e, resp := .fed none })) ∧
    (s.rxDrop = false → s.rxEsc = false → b ≠ 0xC0 → b ≠ 0xDB → feed b s = exec (.feedData b) s) ∧
    (s.rxDrop = false → s.rxEsc = true → feed 0xDC s = exec .feedTmark s) ∧
    (s.rxDrop = false → s.rxEsc = true → feed 0xDD s = exec .feedTesc s)

/-- R127. The bound on `rx_len` is the invariant R49 (a); beyond it see the next statement. -/
def Obligations.FrameEndDeliversACheckedFrameOnly : Prop :=
  ∀ s : State, s.rxLen ≤ s.cfg.rxCap →
    (frameGood s →
      exec .feedEnd s =
        .next { s with rxLen := 0, resp := .fed (some (rxBytes s (s.rxLen - 2))) }) ∧
    (¬ frameGood s → exec .feedEnd s = .next { s with rxLen := 0, resp := .fed none }) ∧
    (s.rxDrop = false → s.rxEsc = false → feed 0xC0 s = exec .feedEnd s)

/-- R82. -/
def Obligations.AcceptedFramesSatisfyTheSumEquation : Prop :=
  (∀ (s t : State) (b : Byte) (p : List Byte), s.rxLen ≤ s.cfg.rxCap → feed b s = .next t →
    (delivered t = some p ↔
      b = 0xC0 ∧ s.rxDrop = false ∧ s.rxEsc = false ∧ frameGood s ∧ p = rxBytes s (s.rxLen - 2))) ∧
  (∀ s : State, checksum (rxBytes s (s.rxLen - 2)) = rxTrailer s ↔
    (((rxBytes s (s.rxLen - 2)).map BitVec.toNat).sum + rxTrailer s) % 65536 = 0) ∧
  (∀ (s : State) (b : Byte), s.rxLen ≤ s.cfg.rxCap → ∃ t, feed b s = .next t)

/-- R136, from every receiver state, with what its last paragraph says of the leading `MARK`. -/
def Obligations.FramesRoundTripThroughTheReceiver : Prop :=
  ∀ (p : List Byte) (s : State), s.rxb.wf = true → s.rxLen ≤ s.cfg.rxCap →
    p.length + 2 ≤ s.cfg.rxCap →
      ∃ (t : State) (d : Option (List Byte)),
        feedAll (fcEncode p) s =
          some (t, d :: (List.replicate ((fcEncode p).length - 2) none ++ [some p])) ∧
        ((s.rxLen = 0 ∨ s.rxEsc = true ∨ s.rxDrop = true) → d = none) ∧
        t = { s with rxb := t.rxb, rxLen := 0, rxEsc := false, rxDrop := false, resp := t.resp }

/-- R137, with the capacity premise it needs (log 19). -/
def Obligations.ASingleChangedByteIsRejected : Prop :=
  ∀ (p : List Byte) (s : State) (k : Nat) (old new prev : Byte),
    s.rxb.wf = true → s.rxLen = 0 → s.rxEsc = false → s.rxDrop = false →
    p.length + 2 ≤ s.cfg.rxCap →
    0 < k → k + 1 < (fcEncode p).length →
    (fcEncode p)[k]? = some old → (fcEncode p)[k - 1]? = some prev →
    old ≠ 0xC0 → old ≠ 0xDB → new ≠ 0xC0 → new ≠ 0xDB → prev ≠ 0xDB → new ≠ old →
      ∃ (t : State) (rs : List (Option (List Byte))),
        feedAll ((fcEncode p).set k new) s = some (t, rs) ∧ ∀ r ∈ rs, r = none

/-- R77 (a): "whatever the receiver's state, after a `MARK` is fed `rx_len = 0`, `rx_esc = 0` and
`rx_drop = 0`", "so no byte received before a `MARK` can influence the parse of a frame after it". -/
def Obligations.NothingBeforeAMarkerInfluencesWhatFollows : Prop :=
  (∀ s : State, s.rxLen ≤ s.cfg.rxCap →
    ∃ r : Option (List Byte),
      feed 0xC0 s = .next { s with rxLen := 0, rxEsc := false, rxDrop := false, resp := .fed r }) ∧
  (∀ (s s' t t' : State) (bs : List Byte),
    s.cfg.rxCap = s'.cfg.rxCap → s.rxb.wf = true → s'.rxb.wf = true →
    feed 0xC0 s = .next t → feed 0xC0 s' = .next t' →
      ∃ (u u' : State) (rs : List (Option (List Byte))),
        feedAll bs t = some (u, rs) ∧ feedAll bs t' = some (u', rs))

/-- R142. The last two clauses say what the walk (step 6) is in terms of the operations R95 selects. -/
def Obligations.CommandDecodeTestsInOrder : Prop :=
  ∀ (buf : List Byte) (s : State),
    (buf.length < 3 → exec (.ccDec buf) s = .next { s with resp := .parseErr .bufferTooSmall }) ∧
    (∀ (id seq status : Byte) (rest : List Byte), buf = id :: seq :: status :: rest →
      (cmdEntry s.cfg id = .unregistered →
        exec (.ccDec buf) s = .next { s with resp := .parseErr .unknownCommand }) ∧
      (cmdEntry s.cfg id = .noFields →
        exec (.ccDec buf) s = .next { s with resp := .parseErr .noFields }) ∧
      (∀ desc : List Byte, cmdEntry s.cfg id = .fields desc →
        (∀ (lo hi : Byte) (tail : List Byte), rest = lo :: hi :: tail →
          lo.toNat + 256 * hi.toNat ≠ buf.length →
            exec (.ccDec buf) s = .next { s with resp := .parseErr .wrongStoredLength }) ∧
        (∀ cur : Nat,
          ((cur = 5 ∧ ∃ (lo hi : Byte) (tail : List Byte),
              rest = lo :: hi :: tail ∧ lo.toNat + 256 * hi.toNat = buf.length) ∨
            (cur = 3 ∧ rest.length < 2)) →
          (∀ k : DecWork,
            decWalk s.cfg desc { buf := buf, id := id, cur := cur, di := 0, fields := [] } = .ok k →
              exec (.ccDec buf) s = .next { s with
                resp := .decoded { id := id, seq := seq, status := status, fields := k.fields } }) ∧
          (∀ e : ParseError,
            decWalk s.cfg desc { buf := buf, id := id, cur := cur, di := 0, fields := [] } = .error e →
              exec (.ccDec buf) s = .next { s with resp := .parseErr e })))) ∧
    (∀ k : DecWork, decWalk s.cfg [] k = .ok k) ∧
    (∀ (ch : Byte) (desc : List Byte), ∃ i : Instr, decode (.descDec ch) = .ok i ∧
      ((∃ k : DecWork, exec i s = .next { s with decW := k, resp := .none } ∧
          decWalk s.cfg (ch :: desc) s.decW = decWalk s.cfg desc k) ∨
        (∃ e : ParseError, exec i s = .next { s with resp := .parseErr e } ∧
          decWalk s.cfg (ch :: desc) s.decW = .error e)))

/-- R143 to R147. -/
def Obligations.ScalarStepsReadLittleEndianValues : Prop :=
  ∀ (w : Width) (s : State),
    (s.decW.cur + w.bytes ≤ s.decW.buf.length →
      ∃ v : BitVec w.bits,
        exec (decScalarInstr w) s = .next (fieldRead (.scalar w v) (s.decW.cur + w.bytes) s) ∧
        ∀ i : Nat, i < w.bytes →
          s.decW.buf[s.decW.cur + i]? = some (BitVec.ofNat 8 (v.toNat / 256 ^ i))) ∧
    (s.decW.buf.length < s.decW.cur + w.bytes → s.decW.id ≠ s.cfg.idStatusReport →
      exec (decScalarInstr w) s = .next { s with resp := .parseErr .charFieldOverflow }) ∧
    (s.decW.buf.length < s.decW.cur + w.bytes → s.decW.id = s.cfg.idStatusReport →
      exec (decScalarInstr w) s = .next (fieldRead (.scalar w 0) s.decW.buf.length s))

/-- R148. -/
def Obligations.StringStepStopsAtTheFirstZero : Prop :=
  ∀ s : State,
    (∀ j : Nat, s.decW.cur ≤ j → s.decW.buf[j]? = some 0x00 →
      (∀ i : Nat, s.decW.cur ≤ i → i < j → s.decW.buf[i]? ≠ some 0x00) →
        exec .decStr s =
          .next (fieldRead (.cstr (slice s.decW.buf s.decW.cur (j - s.decW.cur))) (j + 1) s)) ∧
    ((∀ i : Nat, s.decW.cur ≤ i → s.decW.buf[i]? ≠ some 0x00) →
      exec .decStr s = .next { s with resp := .parseErr .readOverflow })

/-- R149 to R152. -/
def Obligations.RepeatedStepsReadACountAndTheElements : Prop :=
  ∀ (w : Width) (s : State),
    (∀ c : Byte, s.decW.buf[s.decW.cur]? = some c →
      s.decW.cur + 1 + c.toNat * w.bytes ≤ s.decW.buf.length →
        ∃ xs : List (BitVec w.bits),
          exec (decRepInstr w) s =
              .next (fieldRead (.rep w xs) (s.decW.cur + 1 + c.toNat * w.bytes) s) ∧
          xs.length = c.toNat ∧
          ∀ (i b : Nat) (x : BitVec w.bits), xs[i]? = some x → b < w.bytes →
            s.decW.buf[s.decW.cur + 1 + i * w.bytes + b]? =
              some (BitVec.ofNat 8 (x.toNat / 256 ^ b))) ∧
    (s.decW.buf[s.decW.cur]? = none →
      exec (decRepInstr w) s = .next { s with resp := .parseErr .readOverflow }) ∧
    (∀ c : Byte, s.decW.buf[s.decW.cur]? = some c →
      s.decW.buf.length < s.decW.cur + 1 + c.toNat * w.bytes →
        exec (decRepInstr w) s = .next { s with resp := .parseErr .readOverflow })

/-- R153. -/
def Obligations.RawBufferStepTestsInOrder : Prop :=
  ∀ s : State,
    (s.decW.buf.length < s.decW.cur + 2 →
      exec .decRaw s = .next { s with resp := .parseErr .dbufIncomplete }) ∧
    (∀ (lo hi : Byte) (len : Nat), s.decW.buf[s.decW.cur]? = some lo →
      s.decW.buf[s.decW.cur + 1]? = some hi → len = lo.toNat + 256 * hi.toNat →
        (s.decW.buf.length < s.decW.cur + 2 + len →
          exec .decRaw s = .next { s with resp := .parseErr .dbufLenLargerData }) ∧
        (s.decW.cur + 2 + len ≤ s.decW.buf.length → s.cfg.maxPayload < len →
          exec .decRaw s = .next { s with resp := .parseErr .dbufLenTooLarge }) ∧
        (s.decW.cur + 2 + len ≤ s.decW.buf.length → len ≤ s.cfg.maxPayload →
          exec .decRaw s =
            .next (fieldRead (.raw (slice s.decW.buf (s.decW.cur + 2) len))
              (s.decW.cur + 2 + len) s)))

/-- R155, R91, R69: the decoder invents nothing and reads nothing outside the buffer, but for the status-report
zero-fill (R143). -/
def Obligations.DecodedFieldsAreTheBytesRead : Prop :=
  ∀ (c : Config) (buf : List Byte) (cmd : Command), ccDecode c buf = .ok cmd →
    wellTyped c cmd = true ∧
    (cmd.id ≠ c.idStatusReport →
      ∃ rest : List Byte,
        (5 ≤ buf.length → buf = [cmd.id, cmd.seq, cmd.status] ++ littleEndian 2 buf.length ++
          cmd.fields.flatMap fieldImage ++ rest) ∧
        (buf.length < 5 → buf = [cmd.id, cmd.seq, cmd.status] ++
          cmd.fields.flatMap fieldImage ++ rest))

/-- R161 to R164. -/
def Obligations.ScalarStepsWriteLittleEndianBytes : Prop :=
  ∀ (w : Width) (v : FieldVal) (s : State),
    (∀ x : BitVec w.bits, v = .scalar w x → s.encW.out.length + w.bytes ≤ s.encW.maxLen →
      exec (encScalarInstr v w) s = .next (fieldWritten (littleEndian w.bytes x.toNat) s)) ∧
    (((∀ x : BitVec w.bits, v ≠ .scalar w x) ∨ s.encW.maxLen < s.encW.out.length + w.bytes) →
      exec (encScalarInstr v w) s = .next { s with resp := .bytes [] })

/-- R165, R170. -/
def Obligations.StringAndRawStepsWriteTheirImage : Prop :=
  ∀ (v : FieldVal) (s : State),
    (∀ bs : List Byte, v = .cstr bs →
      (s.encW.out.length + bs.length + 1 ≤ s.encW.maxLen →
        exec (.encStr v) s = .next (fieldWritten (bs ++ [0x00]) s)) ∧
      (s.encW.maxLen < s.encW.out.length + bs.length + 1 →
        exec (.encStr v) s = .next { s with resp := .bytes [] })) ∧
    ((∀ bs : List Byte, v ≠ .cstr bs) → exec (.encStr v) s = .next { s with resp := .bytes [] }) ∧
    (∀ bs : List Byte, v = .raw bs →
      (bs.length ≤ s.cfg.maxPayload → s.encW.out.length + 2 + bs.length ≤ s.encW.maxLen →
        exec (.encRaw v) s = .next (fieldWritten (littleEndian 2 bs.length ++ bs) s)) ∧
      ((s.cfg.maxPayload < bs.length ∨ s.encW.maxLen < s.encW.out.length + 2 + bs.length) →
        exec (.encRaw v) s = .next { s with resp := .bytes [] })) ∧
    ((∀ bs : List Byte, v ≠ .raw bs) → exec (.encRaw v) s = .next { s with resp := .bytes [] })

/-- R166 to R169. -/
def Obligations.RepeatedStepsWriteACountAndTheElements : Prop :=
  ∀ (w : Width) (v : FieldVal) (s : State),
    (∀ xs : List (BitVec w.bits), v = .rep w xs →
      (xs.length ≤ 255 → s.encW.out.length + 1 + xs.length * w.bytes ≤ s.encW.maxLen →
        exec (encRepInstr v w) s =
          .next (fieldWritten
            ([BitVec.ofNat 8 xs.length] ++ xs.flatMap (fun x => littleEndian w.bytes x.toNat)) s)) ∧
      ((255 < xs.length ∨ s.encW.maxLen < s.encW.out.length + 1 + xs.length * w.bytes) →
        exec (encRepInstr v w) s = .next { s with resp := .bytes [] })) ∧
    ((∀ xs : List (BitVec w.bits), v ≠ .rep w xs) →
      exec (encRepInstr v w) s = .next { s with resp := .bytes [] })

/-- R154, R171. -/
def Obligations.UnknownCharactersFailWhenReached : Prop :=
  (∀ (ch : Byte) (s : State),
    exec (.decBad ch) s = .next { s with resp := .parseErr .unknownField } ∧
    exec (.encBad ch) s = .next { s with resp := .bytes [] }) ∧
  (∀ (c : Config) (before after : List Byte) (ch : Byte) (k : DecWork), fieldKind ch = none →
    (∀ k1 : DecWork, decWalk c before k = .ok k1 →
      decWalk c (before ++ ch :: after) k = .error .unknownField) ∧
    (∀ e : ParseError, decWalk c before k = .error e →
      decWalk c (before ++ ch :: after) k = .error e)) ∧
  (∀ (cmd : Command) (m : BitVec 16) (s : State) (desc : List Byte) (ch : Byte),
    cmd.id ≠ s.cfg.idAck → cmdEntry s.cfg cmd.id = .fields desc → ch ∈ desc → fieldKind ch = none →
      exec (.ccEnc cmd m) s = .next { s with resp := .bytes [] })

/-- R160, the eight steps of the pseudocode as one formula. -/
def Obligations.CommandEncodeInClosedForm : Prop :=
  ∀ (cmd : Command) (m : BitVec 16) (s : State),
    (m.toNat < 3 → exec (.ccEnc cmd m) s = .next { s with resp := .bytes [] }) ∧
    (3 ≤ m.toNat → cmd.id = s.cfg.idAck →
      exec (.ccEnc cmd m) s = .next { s with resp := .bytes [cmd.id, cmd.seq, cmd.status] }) ∧
    (cmd.id ≠ s.cfg.idAck → (∀ desc : List Byte, cmdEntry s.cfg cmd.id ≠ .fields desc) →
      exec (.ccEnc cmd m) s = .next { s with resp := .bytes [] }) ∧
    (∀ desc : List Byte, cmd.id ≠ s.cfg.idAck → cmdEntry s.cfg cmd.id = .fields desc →
      (List.Forall₂ (stepTakes s.cfg) desc cmd.fields → encodedSize cmd ≤ m.toNat →
        exec (.ccEnc cmd m) s = .next { s with
          resp := .bytes ([cmd.id, cmd.seq, cmd.status] ++ littleEndian 2 (encodedSize cmd) ++
            cmd.fields.flatMap fieldImage) }) ∧
      (¬ (List.Forall₂ (stepTakes s.cfg) desc cmd.fields ∧ encodedSize cmd ≤ m.toNat) →
        exec (.ccEnc cmd m) s = .next { s with resp := .bytes [] }))

/-- R173. `max_len` is at most 65535 (R160). -/
def Obligations.CommandsRoundTripThroughTheCodec : Prop :=
  ∀ (c : Config) (cmd : Command) (m : Nat), m ≤ 65535 → ccEncode c cmd m ≠ [] →
    (wellTyped c cmd = true → cmd.id ≠ c.idAck → ccDecode c (ccEncode c cmd m) = .ok cmd) ∧
    (cmd.id = c.idAck →
      (cmdEntry c cmd.id = .fields [] →
        ccDecode c (ccEncode c cmd m) = .ok { cmd with fields := [] }) ∧
      (∀ (ch : Byte) (desc : List Byte) (w : Width), cmdEntry c cmd.id = .fields (ch :: desc) →
        fieldKind ch = some (.scalar w) → c.idAck ≠ c.idStatusReport →
          ccDecode c (ccEncode c cmd m) = .error .charFieldOverflow) ∧
      (∀ (desc : List Byte) (ws : List Width), cmdEntry c cmd.id = .fields desc →
        desc.map fieldKind = ws.map (fun w => some (.scalar w)) → c.idAck = c.idStatusReport →
          ccDecode c (ccEncode c cmd m) =
            .ok { cmd with fields := ws.map (fun w => FieldVal.scalar w 0) }) ∧
      (cmdEntry c cmd.id = .noFields → ccDecode c (ccEncode c cmd m) = .error .noFields))

/-- R183. -/
def Obligations.SequenceAllocationSkipsHeldNumbers : Prop :=
  ∀ s : State, ∃ (n : Byte) (k : Nat),
    exec .sqSeq s = .next { s with seqCtr := n, resp := .seqNum n } ∧
    n = s.seqCtr + 1 + BitVec.ofNat 8 k ∧ ¬ seqHeld s n ∧
    (∀ j : Nat, j < k → seqHeld s (s.seqCtr + 1 + BitVec.ofNat 8 j)) ∧
    k ≤ 32 ∧ ((∃ i : Fin 32, s.cq[i].state = .init) → k ≤ 31)

/-- R182, R185. -/
def Obligations.EnqueueCoreCreatesOneItem : Prop :=
  ∀ (s : State) (cmd : Command) (target : Option Dest) (now : Time),
    ((∀ i : Fin 32, nonFree s i) → enqCore cmd target now s = (s, .error .queueFull)) ∧
    (∀ j : Fin 32, firstFrom s.wrPtr j (fun i => s.cq[i].state = .init) →
      (ccEncode s.cfg { cmd with seq := 0 } s.cfg.txMax = [] →
        enqCore cmd target now s = (s, .error .rejected)) ∧
      (∀ n : Byte, ccEncode s.cfg { cmd with seq := 0 } s.cfg.txMax ≠ [] → seqGiven s n →
        enqCore cmd target now s = (itemCreated j n cmd target now s, .ok j))) ∧
    ((∀ i : Fin 32, nonFree s i) ∨
      ∃ j : Fin 32, firstFrom s.wrPtr j (fun i => s.cq[i].state = .init))

/-- R184. -/
def Obligations.EnqueueTestsLinkThenSlotThenEncoding : Prop :=
  ∀ (s : State) (cmd : Command) (t : Nat) (now : Time),
    (s.linkUp = false → exec (.sqEnq cmd t now) s = .next { s with resp := .err .disconnected }) ∧
    (s.linkUp = true →
      ((∀ i : Fin 32, nonFree s i) →
        exec (.sqEnq cmd t now) s = .next { s with resp := .err .queueFull }) ∧
      (∀ j : Fin 32, firstFrom s.wrPtr j (fun i => s.cq[i].state = .init) →
        (ccEncode s.cfg { cmd with seq := 0 } s.cfg.txMax = [] →
          exec (.sqEnq cmd t now) s = .next { s with
            ev := s.ev ++ [.done (.ext (t % 2 ^ s.cfg.targetW)) .rejected none]
            resp := .err .rejected }) ∧
        (∀ n : Byte, ccEncode s.cfg { cmd with seq := 0 } s.cfg.txMax ≠ [] → seqGiven s n →
          exec (.sqEnq cmd t now) s = .next
            { itemCreated j n cmd (some (.ext (t % 2 ^ s.cfg.targetW))) now s with
              resp := .okSlot j })))

/-- R186. -/
def Obligations.BackpressureIsImmediate : Prop :=
  (∀ (s : State) (cmd : Command) (t : Nat) (now : Time), ∃ s' : State,
    exec (.sqEnq cmd t now) s = .next s' ∧
    ((∃ j : Fin 32, s'.resp = .okSlot j) ↔
      s.linkUp = true ∧ (∃ i : Fin 32, s.cq[i].state = .init) ∧
        ccEncode s.cfg { cmd with seq := 0 } s.cfg.txMax ≠ []) ∧
    (s.linkUp = true → (∀ i : Fin 32, nonFree s i) → s' = { s with resp := .err .queueFull })) ∧
  (∀ (s : State) (r : Nat), s.linkUp = true → s.pqCnt = 16 →
    exec (.pqPush r) s = .next { s with resp := .err .pendingQueueFull })

/-- R188. -/
def Obligations.PendingPushAppendsTheIdentifier : Prop :=
  ∀ (s : State) (r : Nat),
    (s.linkUp = true → s.pqCnt < 16 → ∃ pq : Vector Nat 16,
      exec (.pqPush r) s = .next { s with pq := pq, pqCnt := s.pqCnt + 1, resp := .ok } ∧
      pqContent { s with pq := pq, pqCnt := s.pqCnt + 1 } =
        pqContent s ++ [r % 2 ^ s.cfg.reqIdW] ∧
      (∀ k : Fin 16, k.val = (s.pqRd.val + s.pqCnt) % 16 → pq[k] = r % 2 ^ s.cfg.reqIdW) ∧
      (∀ k : Fin 16, k.val ≠ (s.pqRd.val + s.pqCnt) % 16 → pq[k] = s.pq[k])) ∧
    (s.linkUp = true → s.pqCnt = 16 →
      exec (.pqPush r) s = .next { s with resp := .err .pendingQueueFull }) ∧
    (s.linkUp = false → exec (.pqPush r) s = .next { s with resp := .err .disconnected })

/-- R190. -/
def Obligations.KillFailsEverythingInOrder : Prop :=
  ∀ s : State, ∃ cq : Vector QueueItem 32,
    exec .sqKill s = .next { s with
      cq := cq, pqCnt := 0, pqRd := 0, wrPtr := 0, sndPtr := 0, resp := .none
      ev := s.ev ++
        ((items s).filter (fun q => q.state != .init)).filterMap (doneOf .disconnected) ++
        (pqContent s).map (fun r => .done (.bulk r) .disconnected none) } ∧
    ∀ i : Fin 32, cq[i] = { s.cq[i] with state := .init }

/-- R200. -/
def Obligations.TickIsItsFourStepsInOrder : Prop :=
  ∀ (s : State) (now : Time) (txOk : Bool) (answer : Option Command),
    (s.timerArmed = true ∧ (now - s.timerDue).toNat < 2 ^ 31 →
      ∃ s1 s2 s3 t : State,
        exec (.tickSweep now) { s with timerArmed := false } = .next s1 ∧
        exec (.tickGen now answer) s1 = .next s2 ∧
        exec (.tickSend now txOk) s2 = .next s3 ∧
        exec (.tickRearm now) s3 = .next t ∧
        exec (.sqTick now txOk answer) s = .next t) ∧
    (¬ (s.timerArmed = true ∧ (now - s.timerDue).toNat < 2 ^ 31) →
      exec (.sqTick now txOk answer) s = .next { s with resp := .none })

/-- R201, R202. What the freed items signal is the next statement. -/
def Obligations.SweepRetriesOrFreesWhatTimedOut : Prop :=
  ∀ (s : State) (now : Time), ∃ (cq : Vector QueueItem 32) (f : BitVec 8) (es : List Event),
    exec (.tickSweep now) s =
      .next { s with cq := cq, failCtr := f, ev := s.ev ++ es, resp := .none } ∧
    ∀ i : Fin 32,
      (agedOut now s i → s.cq[i].retries.toNat < s.cfg.maxRetries →
        cq[i] = { s.cq[i] with retries := s.cq[i].retries + 1, state := .waitSend }) ∧
      (agedOut now s i → ¬ s.cq[i].retries.toNat < s.cfg.maxRetries →
        cq[i] = { s.cq[i] with state := .init }) ∧
      (¬ agedOut now s i → cq[i] = s.cq[i])

/-- R203. At saturation with `FAIL_THRESHOLD` = 255 the pseudocode and the prose differ: the model follows the
prose, D28 and U19 (log 18). -/
def Obligations.ExpiriesSignalTimeoutAndCount : Prop :=
  ∀ (s : State) (now : Time), ∃ t : State, exec (.tickSweep now) s = .next t ∧
    t.failCtr.toNat =
      min 255 (s.failCtr.toNat + ((items s).filter (expires now s.cfg)).length) ∧
    t.ev = s.ev ++
      expiryEvents s.cfg.failThreshold s.failCtr.toNat ((items s).filter (expires now s.cfg))

/-- R204, R205, R206; `enqCore` is the subject of `EnqueueCoreCreatesOneItem`. -/
def Obligations.GenerationTakesAtMostOneBranch : Prop :=
  ∀ (s : State) (now : Time) (answer : Option Command),
    let pendingConfirm := holdsOn s.cfg.confirmPending s.devStatus0 s.devStatus1 = true
    let pendingInd := holdsOn s.cfg.indicationPending s.devStatus0 s.devStatus1 = true
    let bulkOpen := holdsOn s.cfg.joined s.devStatus0 s.devStatus1 = true ∧
      holdsOn s.cfg.freeSlot s.devStatus0 s.devStatus1 = true ∧ 0 < s.pqCnt ∧
      ∃ i : Fin 32, s.cq[i].state = .init
    let popped : State := { s with pqRd := s.pqRd + 1, pqCnt := s.pqCnt - 1 }
    let rejected : Event := .done (.bulk s.pq[s.pqRd]) .rejected none
    let becomes (t : State) : Prop := exec (.tickGen now answer) s = .next { t with resp := .none }
    (keepaliveWanted now s ∧ ¬ idHeld s s.cfg.keepalive.id →
      becomes (enqCore s.cfg.keepalive none now s).1) ∧
    (¬ (keepaliveWanted now s ∧ ¬ idHeld s s.cfg.keepalive.id) →
      (pendingConfirm ∧ ¬ idHeld s s.cfg.fetchConfirm.id →
        becomes (enqCore s.cfg.fetchConfirm none now s).1) ∧
      (¬ (pendingConfirm ∧ ¬ idHeld s s.cfg.fetchConfirm.id) →
        pendingInd ∧ ¬ idHeld s s.cfg.fetchInd.id →
          becomes (enqCore s.cfg.fetchInd none now s).1) ∧
      (¬ (pendingConfirm ∧ ¬ idHeld s s.cfg.fetchConfirm.id) →
        ¬ (pendingInd ∧ ¬ idHeld s s.cfg.fetchInd.id) → pendingConfirm ∨ pendingInd → becomes s) ∧
      (¬ pendingConfirm → ¬ pendingInd → ¬ bulkOpen → becomes s) ∧
      (¬ pendingConfirm → ¬ pendingInd → bulkOpen →
        (answer = none → becomes { popped with ev := s.ev ++ [rejected] }) ∧
        (∀ (c : Command) (t : State) (j : Fin 32), answer = some c →
          enqCore c (some (.bulk s.pq[s.pqRd])) now popped = (t, .ok j) → becomes t) ∧
        (∀ (c : Command) (t : State) (e : HostError), answer = some c →
          enqCore c (some (.bulk s.pq[s.pqRd])) now popped = (t, .error e) →
            becomes { t with ev := t.ev ++ [rejected] })))

/-- R208. -/
def Obligations.SendHandsOverOneFrame : Prop :=
  ∀ (s : State) (now : Time) (txOk : Bool),
    (∀ j : Fin 32, firstFrom s.sndPtr j (fun i => s.cq[i].state = .waitSend) →
      inflight s < 2 → txOk = true →
        exec (.tickSend now txOk) s = .next { s with
          tx := s.tx ++ wireFrame (ccEncode s.cfg s.cq[j].cmd s.cfg.txMax)
          cq := s.cq.set j { s.cq[j] with state := .waitConfirm, tTx := now }
          tLastTx := now, sndPtr := j + 1, resp := .none }) ∧
    ((∀ i : Fin 32, s.cq[i].state ≠ .waitSend) ∨ ¬ inflight s < 2 ∨ txOk = false →
      exec (.tickSend now txOk) s = .next { s with resp := .none }) ∧
    ((∀ i : Fin 32, s.cq[i].state ≠ .waitSend) ∨
      ∃ j : Fin 32, firstFrom s.sndPtr j (fun i => s.cq[i].state = .waitSend))

/-- R210. -/
def Obligations.RearmCountsFromNow : Prop :=
  ∀ (s : State) (now : Time), ∃ due : Time,
    exec (.tickRearm now) s = .next { s with timerArmed := true, timerDue := due, resp := .none } ∧
    due.toNat = (now.toNat + s.cfg.tTick) % 2 ^ 32

/-- R211, R212. -/
def Obligations.DispatchConfirmsUpdatesAndRoutes : Prop :=
  ∀ (s : State) (cmd : Command) (now : Time), ∃ s1 : State,
    ((∃ i : Fin 32, confirmsSlot cmd s i ∧ (∀ j : Fin 32, j < i → ¬ confirmsSlot cmd s j) ∧
        s1 = itemConfirmed i cmd now s) ∨
      ((∀ i : Fin 32, ¬ confirmsSlot cmd s i) ∧ s1 = s)) ∧
    (statusOf s.cfg cmd = none ∨ statusOf s.cfg cmd = some (s.devStatus0, s.devStatus1) →
      exec (.sqDisp cmd now) s =
        .next { s1 with ev := s1.ev ++ [.commandInd cmd], resp := .none }) ∧
    (∀ b0 b1 : Byte, statusOf s.cfg cmd = some (b0, b1) →
      ¬ (b0 = s.devStatus0 ∧ b1 = s.devStatus1) →
        exec (.sqDisp cmd now) s = .next { s1 with
          devStatus0 := b0, devStatus1 := b1
          ev := s1.ev ++ [.devStatusChanged b0 b1, .commandInd cmd], resp := .none })

/-- R230; `feed` is R125, its result the subject of `AcceptedFramesSatisfyTheSumEquation`; the bound on
`rx_len` is the invariant R49 (a). -/
def Obligations.ReceivedBytesRunTheInboundChain : Prop :=
  ∀ (s : State) (b : Byte) (now : Time),
    (s.linkUp = false → exec (.rxByte b now) s = .next { s with resp := .none }) ∧
    (s.linkUp = true → s.rxLen ≤ s.cfg.rxCap → ∃ t u : State,
      feed b s = .next t ∧ exec (.rxByte b now) s = .next u ∧
      (delivered t = none → u = { t with resp := .none }) ∧
      (∀ (p : List Byte) (cmd : Command), delivered t = some p → ccDecode s.cfg p = .ok cmd →
        exec (.sqDisp cmd now) t = .next u) ∧
      (∀ (p : List Byte) (e : ParseError), delivered t = some p → ccDecode s.cfg p = .error e →
        u = { t with lastPerr := e.code, resp := .none }))

/-- R4's inbound chain end to end: R136 and R173 through R230. -/
def Obligations.ReceiveChainDeliversAWholeFrame : Prop :=
  ∀ (s : State) (cmd : Command) (m : Nat) (now : Time),
    s.linkUp = true → s.rxb.wf = true → s.rxLen = 0 → s.rxEsc = false → s.rxDrop = false →
    m ≤ 65535 → wellTyped s.cfg cmd = true → cmd.id ≠ s.cfg.idAck → ccEncode s.cfg cmd m ≠ [] →
    (ccEncode s.cfg cmd m).length + 2 ≤ s.cfg.rxCap →
      ∃ u t : State,
        exec (.sqDisp cmd now) s = .next u ∧
        (fcEncode (ccEncode s.cfg cmd m)).foldl
            (fun (r : Option State) (b : Byte) => match r with
              | none => none
              | some x => match exec (.rxByte b now) x with
                | .next y => some y
                | .fault _ => none
                | .refused _ => none) (some s) = some t ∧
        t = { u with rxb := t.rxb }

/-- R234. -/
def Obligations.ConnectStartsASession : Prop :=
  ∀ (s : State) (now : Time),
    (s.linkUp = false → exec (.evConn now) s = .next { s with
      linkUp := true, rxLen := 0, rxEsc := false, rxDrop := false, rxOvf := false, lastPerr := 0
      devStatus0 := 0, devStatus1 := 0, failCtr := 0, tLastTx := now, tLastConfirm := now
      timerArmed := true, timerDue := now, ev := s.ev ++ [.connected], resp := .none }) ∧
    (s.linkUp = true → exec (.evConn now) s = .next { s with resp := .none })

/-- R236. -/
def Obligations.DisconnectKillsEverythingThenReports : Prop :=
  ∀ (s : State) (reason : BitVec 3), ∃ t : State,
    exec .sqKill { s with timerArmed := false } = .next t ∧
    exec (.evDisc reason) s =
      .next { t with linkUp := false, ev := t.ev ++ [.disconnected reason] } ∧
    t.timerArmed = false ∧ t.pqCnt = 0 ∧ ∀ i : Fin 32, t.cq[i].state = .init

/-- R48, R238. The values of what the table leaves unspecified are the model's (log 5 to 8) and not stated;
R238 (d) calls the emptying of `tx` and `ev`, which its pseudocode gives, a convention (log 9). -/
def Obligations.ResetLeavesTheValuesOfTheTable : Prop :=
  ∀ t : State,
    (t = State.reset ∨ ∃ s : State, exec .sysReset s = .next t) →
      t.rxLen = 0 ∧ t.rxEsc = false ∧ t.rxDrop = false ∧ t.rxOvf = false ∧ t.lastPerr = 0 ∧
      (∀ i : Fin 32, t.cq[i].state = .init) ∧ t.wrPtr = 0 ∧ t.sndPtr = 0 ∧ t.seqCtr = 0 ∧
      t.devStatus0 = 0 ∧ t.devStatus1 = 0 ∧ t.failCtr = 0 ∧ t.pqRd = 0 ∧ t.pqCnt = 0 ∧
      t.timerArmed = false ∧ t.linkUp = false ∧ t.tx = [] ∧ t.ev = [] ∧
      ∀ s : State, ∃ u : State, exec .sysReset s = .next u ∧ u.cfg = s.cfg

/-- R239. -/
def Obligations.ClearDiagnosticsClearsTwoRegisters : Prop :=
  ∀ s : State, exec .sysClrdiag s = .next { s with rxOvf := false, lastPerr := 0, resp := .none }

/-- R240, R47. The premises are invariants (R49 (c), (e) and (a) with `RX_CAP` at most 65535). -/
def Obligations.ReadOutShowsTheTableOfRegisters : Prop :=
  ∀ (s : State) (n : Byte), windowOk s → pendingOk s → s.rxLen ≤ 65535 →
    ∃ v : BitVec 16, exec (.sysRdcsr n) s = .next { s with resp := .value v } ∧
      (n = 0 → v.toNat = s.linkUp.toNat + 2 * s.timerArmed.toNat + 4 * s.rxEsc.toNat +
        8 * s.rxDrop.toNat + 16 * s.rxOvf.toNat) ∧
      (n = 1 → v.toNat = s.devStatus0.toNat + 256 * s.devStatus1.toNat) ∧
      (n = 2 → v.toNat = s.seqCtr.toNat) ∧
      (n = 3 → v.toNat = s.failCtr.toNat) ∧
      (n = 4 → v.toNat = (items s).countP (fun q => q.state == .waitConfirm)) ∧
      (n = 5 → v.toNat = (items s).countP (fun q => q.state != .init)) ∧
      (n = 6 → v.toNat = s.pqCnt) ∧
      (n = 7 → v.toNat = s.lastPerr.toNat) ∧
      (n = 8 → v.toNat = s.rxLen) ∧
      (n = 9 → v.toNat = s.wrPtr.val + 256 * s.sndPtr.val) ∧
      (9 < n.toNat → v = 0)

/-- R241. -/
def Obligations.CodecOperationsOnHostArePure : Prop :=
  ∀ (i : Instr) (p : List Byte) (cmd : Command) (m : BitVec 16),
    i ∈ [.fcEnc p, .ccEnc cmd m, .ccDec p] →
      ∀ c : Config, ∃ r : Resp, ∀ s : State, s.cfg = c → exec i s = .next { s with resp := r }

/-- A sanity statement: the numbers of R30, R252, R253, R254. -/
def Obligations.CodesAreThoseOfTheTables : Prop :=
  [ItemState.init, .waitSend, .waitConfirm].map ItemState.code = [0, 1, 2] ∧
  [ParseError.bufferTooSmall, .unknownCommand, .noFields, .wrongStoredLength, .charFieldOverflow,
    .dbufIncomplete, .dbufLenLargerData, .dbufLenTooLarge, .readOverflow, .unknownField].map
      ParseError.code = [1, 2, 3, 4, 5, 6, 7, 8, 9, 10] ∧
  [Completion.success, .timeout, .disconnected, .rejected].map Completion.code = [0, 1, 2, 3] ∧
  [HostError.queueFull, .pendingQueueFull, .disconnected, .rejected, .badOp].map HostError.code =
    [1, 2, 3, 4, 15] ∧
  [reasonNormal, reasonNoPermission, reasonTimeout, reasonIoError, reasonBootloaderOnly] =
    [0, 1, 2, 3, 4]

/-- R48 and R49; the configuration is `T0` (log 2). -/
def Obligations.ResetStateIsSound : Prop :=
  sound State.reset

/-- R49 (a), (b); R135; the canonical form of the memory (log 5). -/
def Obligations.ReceiverStaysInsideItsBuffer : Prop :=
  ∀ s t : State, externalInbox s → memoryOk s → receiverOk s → step s = .next t →
    externalInbox t ∧ memoryOk t ∧ receiverOk t

/-- R49 (c), R209: "at no time are more than 2 items in WaitConfirm". -/
def Obligations.AtMostTwoItemsInFlight : Prop :=
  ∀ s t : State, windowOk s → step s = .next t → windowOk t

/-- R49 (d). -/
def Obligations.SequenceNumbersStayUnique : Prop :=
  ∀ s t : State, seqUnique s → step s = .next t → seqUnique t

/-- R49 (e), (f); R266: "With the link up the timer is always armed"; R234: pointers "zero since the last
`EV.DISC` or reset". -/
def Obligations.NothingIsQueuedWhileTheLinkIsDown : Prop :=
  ∀ s t : State, externalInbox s → pendingOk s → quietWhileDown s → armedWhileUp s →
    step s = .next t → externalInbox t ∧ pendingOk t ∧ quietWhileDown t ∧ armedWhileUp t

/-- R49 (g), (h). -/
def Obligations.QueuedCommandsStayEncodableAndWithinTheirRetries : Prop :=
  ∀ s t : State, retriesOk s → encodableOk s → step s = .next t → retriesOk t ∧ encodableOk t

/-- R250: "No error of any class stops the block: after every error outcome the block accepts the next
operation". -/
def Obligations.NoErrorStopsTheBlock : Prop :=
  ∀ s : State, configOk s.cfg = true → s.rxLen ≤ s.cfg.rxCap → ∃ t : State, step s = .next t

/-- R44: "A frame is appended whole, by one operation"; R45; R79. -/
def Obligations.StreamsOnlyGrowByWholeFrames : Prop :=
  ∀ s t : State, step s = .next t →
    t.cfg = s.cfg ∧
    ((∀ (x : HostOperands) (now : Time) (rest : List Transfer), s.inbox ≠ .host 0x05 x now :: rest) →
      (∃ es : List Event, t.ev = s.ev ++ es) ∧
      (t.tx = s.tx ∨ ∃ j : Fin 32, t.cq[j].state = .waitConfirm ∧
        t.tx = s.tx ++ wireFrame (ccEncode s.cfg t.cq[j].cmd s.cfg.txMax)))

/-- R180, R31. -/
def Obligations.ItemsMoveOnlyAlongTheStateMachine : Prop :=
  ∀ (i : Instr) (s t : State) (j : Fin 32), exec i s = .next t →
    mayMove i s.cq[j].state t.cq[j].state ∧
    ((∀ (now : Time) (txOk : Bool) (answer : Option Command), i ≠ .sqTick now txOk answer) →
      nonFree s j → nonFree t j →
        t.cq[j].cmd = s.cq[j].cmd ∧ t.cq[j].target = s.cq[j].target)

/-- The count behind R191: "Every command accepted by `SQ.ENQ` with `Ok`, and every request accepted by `PQ.PUSH` with
`Ok`, gets exactly one `Done` event over its life"; a rejected command gets its `Done` at once (R184). -/
def Obligations.AcceptedCommandsAndDonesBalancePerTarget : Prop :=
  ∀ (i : Instr) (s t : State) (d : Dest), exec i s = .next t → i ≠ .sysReset →
    ((∀ (cmd : Command) (x : Nat) (now : Time), i ≠ .sqEnq cmd x now) → (∀ r : Nat, i ≠ .pqPush r) →
      accounted d t = accounted d s) ∧
    (∀ (cmd : Command) (x : Nat) (now : Time), i = .sqEnq cmd x now →
      (((∃ j : Fin 32, t.resp = .okSlot j) ∨ t.resp = .err .rejected) →
        accounted d t = accounted d s + if d = .ext (x % 2 ^ s.cfg.targetW) then 1 else 0) ∧
      (¬ ((∃ j : Fin 32, t.resp = .okSlot j) ∨ t.resp = .err .rejected) →
        accounted d t = accounted d s)) ∧
    (∀ r : Nat, i = .pqPush r →
      (pendingOk s → t.resp = .ok →
        accounted d t = accounted d s + if d = .bulk (r % 2 ^ s.cfg.reqIdW) then 1 else 0) ∧
      (t.resp ≠ .ok → accounted d t = accounted d s))

/-- The model's choices (log 21 to 24): "A model refuses a configuration that is not well-formed" (R13); an offset
past `RX_CAP` "is not an address" (R61); the spec has no idle step. -/
def Obligations.StopsAreTheModelsOwn : Prop :=
  (∀ s : State, configOk s.cfg = false → step s = .refused .illFormedConfiguration) ∧
  (∀ s : State, configOk s.cfg = true → s.inbox = [] → step s = .next s) ∧
  (∀ s : State, s.cfg.rxCap < s.rxLen →
    (2 ≤ s.rxLen → exec .feedEnd s = .fault (.rxbOffset s.rxLen)) ∧
    (s.rxLen < 2 → exec .feedEnd s = .next { s with rxLen := 0, resp := .fed none }))
end

