-- ==== Sys2Proof/Laws/Memory.lean ====
section
/-! SUPPORT. The laws of the byte space `RXB`: reading after writing, and the canonical form. -/

namespace Sys2Proof.Machine

@[simp] theorem memRead_nil (a : Nat) : memRead [] a = memUnlisted := rfl

theorem memRead_cons (b : Nat) (v : Byte) (m : Memory) (a : Nat) :
    memRead ((b, v) :: m) a = if b = a then v else memRead m a := rfl

/-- A larger lower bound is the stronger form. -/
theorem wfFrom_mono {lo lo' : Nat} (h : lo' ≤ lo) :
    ∀ {m : Memory}, Memory.wfFrom lo m = true → Memory.wfFrom lo' m = true
  | [], _ => rfl
  | (a, v) :: m, hm => by
    simp only [Memory.wfFrom, Bool.and_eq_true, decide_eq_true_eq] at hm ⊢
    exact ⟨⟨by omega, hm.1.2⟩, hm.2⟩

/-- An offset below the bound is not listed. -/
theorem memRead_below {lo a : Nat} (h : a < lo) :
    ∀ {m : Memory}, Memory.wfFrom lo m = true → memRead m a = memUnlisted
  | [], _ => rfl
  | (b, v) :: m, hm => by
    simp only [Memory.wfFrom, Bool.and_eq_true, decide_eq_true_eq] at hm
    rw [memRead_cons, if_neg (by omega)]
    exact memRead_below (by omega) hm.2

theorem memRead_memWrite_same_from (a : Nat) (v : Byte) :
    ∀ {lo : Nat} {m : Memory}, Memory.wfFrom lo m = true → memRead (memWrite m a v) a = v
  | _, [], _ => by
    simp only [memWrite]; split
    · next h => simp [h]
    · simp [memRead_cons]
  | lo, (b, u) :: m, hm => by
    simp only [Memory.wfFrom, Bool.and_eq_true, decide_eq_true_eq] at hm
    simp only [memWrite]
    split
    · next hlt =>
      split
      · next h =>
        rw [memRead_cons, if_neg (by omega), h]
        exact memRead_below (by omega) hm.2
      · simp [memRead_cons]
    · split
      · next hnlt heq =>
        split
        · next h => subst heq; rw [h]; exact memRead_below (by omega) hm.2
        · simp [memRead_cons, heq]
      · next hne =>
        rw [memRead_cons, if_neg (by omega)]
        exact memRead_memWrite_same_from a v hm.2

/-- A read after a write to the same offset gives the value written. -/
theorem memRead_memWrite_same {m : Memory} (hm : m.wf = true) (a : Nat) (v : Byte) :
    memRead (memWrite m a v) a = v := memRead_memWrite_same_from a v hm

/-- A write leaves every other offset alone. -/
theorem memRead_memWrite_other (a : Nat) (v : Byte) (c : Nat) (h : c ≠ a) :
    ∀ m : Memory, memRead (memWrite m a v) c = memRead m c
  | [] => by
    simp only [memWrite]; split
    · rfl
    · rw [memRead_cons, if_neg (by omega)]
  | (b, u) :: m => by
    simp only [memWrite]
    split
    · split
      · rfl
      · rw [memRead_cons, if_neg (by omega)]
    · split
      · next heq =>
        split
        · rw [memRead_cons, if_neg (by omega)]
        · simp only [memRead_cons]
          rw [if_neg (by omega), if_neg (by omega)]
      · simp only [memRead_cons, memRead_memWrite_other a v c h m]

theorem memWrite_wfFrom (a : Nat) (v : Byte) :
    ∀ {lo : Nat} {m : Memory}, lo ≤ a → Memory.wfFrom lo m = true →
      Memory.wfFrom lo (memWrite m a v) = true
  | _, [], hlo, _ => by
    simp only [memWrite]; split
    · rfl
    · next h => simp [Memory.wfFrom, hlo, h]
  | lo, (b, u) :: m, hlo, hm => by
    have hm' := hm
    simp only [Memory.wfFrom, Bool.and_eq_true, decide_eq_true_eq, bne_iff_ne] at hm
    simp only [memWrite]
    split
    · next hlt =>
      split
      · exact hm'
      · next h =>
        simp only [Memory.wfFrom, Bool.and_eq_true, decide_eq_true_eq, bne_iff_ne]
        exact ⟨⟨hlo, h⟩, ⟨by omega, hm.1.2⟩, hm.2⟩
    · split
      · split
        · exact wfFrom_mono (by omega) hm.2
        · next h =>
          simp only [Memory.wfFrom, Bool.and_eq_true, decide_eq_true_eq, bne_iff_ne]
          exact ⟨⟨hm.1.1, h⟩, hm.2⟩
      · simp only [Memory.wfFrom, Bool.and_eq_true, decide_eq_true_eq, bne_iff_ne]
        exact ⟨hm.1, memWrite_wfFrom a v (by omega) hm.2⟩

/-- A write keeps the canonical form. -/
theorem memWrite_wf {m : Memory} (hm : m.wf = true) (a : Nat) (v : Byte) :
    (memWrite m a v).wf = true := memWrite_wfFrom a v (Nat.zero_le a) hm

/-- A write lists no offset that was not listed but its own. -/
theorem memWrite_offsets (a : Nat) (v : Byte) :
    ∀ (m : Memory) (c : Host.Cell), c ∈ memWrite m a v → c.1 = a ∨ c ∈ m
  | [], c, hc => by
    simp only [memWrite] at hc
    split at hc
    · simp at hc
    · simp only [List.mem_singleton] at hc; left; rw [hc]
  | (b, u) :: m, c, hc => by
    simp only [memWrite] at hc
    split at hc
    · split at hc
      · exact .inr hc
      · rcases List.mem_cons.1 hc with h | h
        · left; rw [h]
        · exact .inr h
    · split at hc
      · next heq =>
        split at hc
        · exact .inr (List.mem_cons_of_mem _ hc)
        · rcases List.mem_cons.1 hc with h | h
          · left; rw [h, heq]
          · exact .inr (List.mem_cons_of_mem _ h)
      · rcases List.mem_cons.1 hc with h | h
        · right; rw [h]; exact List.mem_cons_self
        · rcases memWrite_offsets a v m c h with h | h
          · exact .inl h
          · exact .inr (List.mem_cons_of_mem _ h)

theorem memReadRange_length (m : Memory) : ∀ (n off : Nat), (memReadRange m off n).length = n
  | 0, _ => rfl
  | n + 1, off => by simp [memReadRange, memReadRange_length m n (off + 1)]

/-- Reading a range reads each of its offsets. -/
theorem memReadRange_getElem? (m : Memory) :
    ∀ (n off k : Nat), k < n → (memReadRange m off n)[k]? = some (memRead m (off + k))
  | n + 1, off, 0, _ => by simp [memReadRange]
  | n + 1, off, k + 1, h => by
    simp only [memReadRange, List.getElem?_cons_succ]
    rw [memReadRange_getElem? m n (off + 1) k (by omega)]
    congr 2; omega

/-- A range whose offsets read alike in two memories reads alike. -/
theorem memReadRange_congr (m m' : Memory) :
    ∀ (n off : Nat), (∀ k, off ≤ k → k < off + n → memRead m k = memRead m' k) →
      memReadRange m off n = memReadRange m' off n
  | 0, _, _ => rfl
  | n + 1, off, h => by
    simp only [memReadRange]
    rw [h off (by omega) (by omega),
      memReadRange_congr m m' n (off + 1) (fun k h1 h2 => h k (by omega) (by omega))]

theorem memReadRange_snoc (m : Memory) :
    ∀ (n off : Nat), memReadRange m off (n + 1) = memReadRange m off n ++ [memRead m (off + n)]
  | 0, off => by simp [memReadRange]
  | n + 1, off => by
    have h := memReadRange_snoc m n (off + 1)
    simp only [memReadRange, List.cons_append] at h ⊢
    rw [h]; congr 4; omega

end Sys2Proof.Machine
end

