-- ==== Sys2Proof/Laws/State.lean ====
section
/-! SUPPORT. One lemma for each field of State under each named update of Machine/Ops.lean. -/

namespace Sys2Proof.Machine

variable (s : State)

@[simp] theorem respond_cfg (r : Resp) : (respond r s).cfg = s.cfg := rfl
@[simp] theorem respond_inbox (r : Resp) : (respond r s).inbox = s.inbox := rfl
@[simp] theorem respond_resp (r : Resp) : (respond r s).resp = r := rfl
@[simp] theorem respond_rxb (r : Resp) : (respond r s).rxb = s.rxb := rfl
@[simp] theorem respond_rxLen (r : Resp) : (respond r s).rxLen = s.rxLen := rfl
@[simp] theorem respond_rxEsc (r : Resp) : (respond r s).rxEsc = s.rxEsc := rfl
@[simp] theorem respond_rxDrop (r : Resp) : (respond r s).rxDrop = s.rxDrop := rfl
@[simp] theorem respond_rxOvf (r : Resp) : (respond r s).rxOvf = s.rxOvf := rfl
@[simp] theorem respond_lastPerr (r : Resp) : (respond r s).lastPerr = s.lastPerr := rfl
@[simp] theorem respond_cq (r : Resp) : (respond r s).cq = s.cq := rfl
@[simp] theorem respond_wrPtr (r : Resp) : (respond r s).wrPtr = s.wrPtr := rfl
@[simp] theorem respond_sndPtr (r : Resp) : (respond r s).sndPtr = s.sndPtr := rfl
@[simp] theorem respond_seqCtr (r : Resp) : (respond r s).seqCtr = s.seqCtr := rfl
@[simp] theorem respond_devStatus0 (r : Resp) : (respond r s).devStatus0 = s.devStatus0 := rfl
@[simp] theorem respond_devStatus1 (r : Resp) : (respond r s).devStatus1 = s.devStatus1 := rfl
@[simp] theorem respond_failCtr (r : Resp) : (respond r s).failCtr = s.failCtr := rfl
@[simp] theorem respond_pq (r : Resp) : (respond r s).pq = s.pq := rfl
@[simp] theorem respond_pqRd (r : Resp) : (respond r s).pqRd = s.pqRd := rfl
@[simp] theorem respond_pqCnt (r : Resp) : (respond r s).pqCnt = s.pqCnt := rfl
@[simp] theorem respond_timerArmed (r : Resp) : (respond r s).timerArmed = s.timerArmed := rfl
@[simp] theorem respond_timerDue (r : Resp) : (respond r s).timerDue = s.timerDue := rfl
@[simp] theorem respond_tLastTx (r : Resp) : (respond r s).tLastTx = s.tLastTx := rfl
@[simp] theorem respond_tLastConfirm (r : Resp) : (respond r s).tLastConfirm = s.tLastConfirm := rfl
@[simp] theorem respond_linkUp (r : Resp) : (respond r s).linkUp = s.linkUp := rfl
@[simp] theorem respond_tx (r : Resp) : (respond r s).tx = s.tx := rfl
@[simp] theorem respond_ev (r : Resp) : (respond r s).ev = s.ev := rfl
@[simp] theorem respond_decW (r : Resp) : (respond r s).decW = s.decW := rfl
@[simp] theorem respond_encW (r : Resp) : (respond r s).encW = s.encW := rfl

@[simp] theorem emit_cfg (e : Event) : (emit e s).cfg = s.cfg := rfl
@[simp] theorem emit_inbox (e : Event) : (emit e s).inbox = s.inbox := rfl
@[simp] theorem emit_resp (e : Event) : (emit e s).resp = s.resp := rfl
@[simp] theorem emit_rxb (e : Event) : (emit e s).rxb = s.rxb := rfl
@[simp] theorem emit_rxLen (e : Event) : (emit e s).rxLen = s.rxLen := rfl
@[simp] theorem emit_rxEsc (e : Event) : (emit e s).rxEsc = s.rxEsc := rfl
@[simp] theorem emit_rxDrop (e : Event) : (emit e s).rxDrop = s.rxDrop := rfl
@[simp] theorem emit_rxOvf (e : Event) : (emit e s).rxOvf = s.rxOvf := rfl
@[simp] theorem emit_lastPerr (e : Event) : (emit e s).lastPerr = s.lastPerr := rfl
@[simp] theorem emit_cq (e : Event) : (emit e s).cq = s.cq := rfl
@[simp] theorem emit_wrPtr (e : Event) : (emit e s).wrPtr = s.wrPtr := rfl
@[simp] theorem emit_sndPtr (e : Event) : (emit e s).sndPtr = s.sndPtr := rfl
@[simp] theorem emit_seqCtr (e : Event) : (emit e s).seqCtr = s.seqCtr := rfl
@[simp] theorem emit_devStatus0 (e : Event) : (emit e s).devStatus0 = s.devStatus0 := rfl
@[simp] theorem emit_devStatus1 (e : Event) : (emit e s).devStatus1 = s.devStatus1 := rfl
@[simp] theorem emit_failCtr (e : Event) : (emit e s).failCtr = s.failCtr := rfl
@[simp] theorem emit_pq (e : Event) : (emit e s).pq = s.pq := rfl
@[simp] theorem emit_pqRd (e : Event) : (emit e s).pqRd = s.pqRd := rfl
@[simp] theorem emit_pqCnt (e : Event) : (emit e s).pqCnt = s.pqCnt := rfl
@[simp] theorem emit_timerArmed (e : Event) : (emit e s).timerArmed = s.timerArmed := rfl
@[simp] theorem emit_timerDue (e : Event) : (emit e s).timerDue = s.timerDue := rfl
@[simp] theorem emit_tLastTx (e : Event) : (emit e s).tLastTx = s.tLastTx := rfl
@[simp] theorem emit_tLastConfirm (e : Event) : (emit e s).tLastConfirm = s.tLastConfirm := rfl
@[simp] theorem emit_linkUp (e : Event) : (emit e s).linkUp = s.linkUp := rfl
@[simp] theorem emit_tx (e : Event) : (emit e s).tx = s.tx := rfl
@[simp] theorem emit_ev (e : Event) : (emit e s).ev = s.ev ++ [e] := rfl
@[simp] theorem emit_decW (e : Event) : (emit e s).decW = s.decW := rfl
@[simp] theorem emit_encW (e : Event) : (emit e s).encW = s.encW := rfl

@[simp] theorem sendBytes_cfg (bs : List Byte) : (sendBytes bs s).cfg = s.cfg := rfl
@[simp] theorem sendBytes_inbox (bs : List Byte) : (sendBytes bs s).inbox = s.inbox := rfl
@[simp] theorem sendBytes_resp (bs : List Byte) : (sendBytes bs s).resp = s.resp := rfl
@[simp] theorem sendBytes_rxb (bs : List Byte) : (sendBytes bs s).rxb = s.rxb := rfl
@[simp] theorem sendBytes_rxLen (bs : List Byte) : (sendBytes bs s).rxLen = s.rxLen := rfl
@[simp] theorem sendBytes_rxEsc (bs : List Byte) : (sendBytes bs s).rxEsc = s.rxEsc := rfl
@[simp] theorem sendBytes_rxDrop (bs : List Byte) : (sendBytes bs s).rxDrop = s.rxDrop := rfl
@[simp] theorem sendBytes_rxOvf (bs : List Byte) : (sendBytes bs s).rxOvf = s.rxOvf := rfl
@[simp] theorem sendBytes_lastPerr (bs : List Byte) : (sendBytes bs s).lastPerr = s.lastPerr := rfl
@[simp] theorem sendBytes_cq (bs : List Byte) : (sendBytes bs s).cq = s.cq := rfl
@[simp] theorem sendBytes_wrPtr (bs : List Byte) : (sendBytes bs s).wrPtr = s.wrPtr := rfl
@[simp] theorem sendBytes_sndPtr (bs : List Byte) : (sendBytes bs s).sndPtr = s.sndPtr := rfl
@[simp] theorem sendBytes_seqCtr (bs : List Byte) : (sendBytes bs s).seqCtr = s.seqCtr := rfl
@[simp] theorem sendBytes_devStatus0 (bs : List Byte) : (sendBytes bs s).devStatus0 = s.devStatus0 := rfl
@[simp] theorem sendBytes_devStatus1 (bs : List Byte) : (sendBytes bs s).devStatus1 = s.devStatus1 := rfl
@[simp] theorem sendBytes_failCtr (bs : List Byte) : (sendBytes bs s).failCtr = s.failCtr := rfl
@[simp] theorem sendBytes_pq (bs : List Byte) : (sendBytes bs s).pq = s.pq := rfl
@[simp] theorem sendBytes_pqRd (bs : List Byte) : (sendBytes bs s).pqRd = s.pqRd := rfl
@[simp] theorem sendBytes_pqCnt (bs : List Byte) : (sendBytes bs s).pqCnt = s.pqCnt := rfl
@[simp] theorem sendBytes_timerArmed (bs : List Byte) : (sendBytes bs s).timerArmed = s.timerArmed := rfl
@[simp] theorem sendBytes_timerDue (bs : List Byte) : (sendBytes bs s).timerDue = s.timerDue := rfl
@[simp] theorem sendBytes_tLastTx (bs : List Byte) : (sendBytes bs s).tLastTx = s.tLastTx := rfl
@[simp] theorem sendBytes_tLastConfirm (bs : List Byte) : (sendBytes bs s).tLastConfirm = s.tLastConfirm := rfl
@[simp] theorem sendBytes_linkUp (bs : List Byte) : (sendBytes bs s).linkUp = s.linkUp := rfl
@[simp] theorem sendBytes_tx (bs : List Byte) : (sendBytes bs s).tx = s.tx ++ bs := rfl
@[simp] theorem sendBytes_ev (bs : List Byte) : (sendBytes bs s).ev = s.ev := rfl
@[simp] theorem sendBytes_decW (bs : List Byte) : (sendBytes bs s).decW = s.decW := rfl
@[simp] theorem sendBytes_encW (bs : List Byte) : (sendBytes bs s).encW = s.encW := rfl

@[simp] theorem setItem_cfg (i : Fin 32) (q : QueueItem) : (setItem i q s).cfg = s.cfg := rfl
@[simp] theorem setItem_inbox (i : Fin 32) (q : QueueItem) : (setItem i q s).inbox = s.inbox := rfl
@[simp] theorem setItem_resp (i : Fin 32) (q : QueueItem) : (setItem i q s).resp = s.resp := rfl
@[simp] theorem setItem_rxb (i : Fin 32) (q : QueueItem) : (setItem i q s).rxb = s.rxb := rfl
@[simp] theorem setItem_rxLen (i : Fin 32) (q : QueueItem) : (setItem i q s).rxLen = s.rxLen := rfl
@[simp] theorem setItem_rxEsc (i : Fin 32) (q : QueueItem) : (setItem i q s).rxEsc = s.rxEsc := rfl
@[simp] theorem setItem_rxDrop (i : Fin 32) (q : QueueItem) : (setItem i q s).rxDrop = s.rxDrop := rfl
@[simp] theorem setItem_rxOvf (i : Fin 32) (q : QueueItem) : (setItem i q s).rxOvf = s.rxOvf := rfl
@[simp] theorem setItem_lastPerr (i : Fin 32) (q : QueueItem) : (setItem i q s).lastPerr = s.lastPerr := rfl
@[simp] theorem setItem_cq (i : Fin 32) (q : QueueItem) : (setItem i q s).cq = s.cq.set i q := rfl
@[simp] theorem setItem_wrPtr (i : Fin 32) (q : QueueItem) : (setItem i q s).wrPtr = s.wrPtr := rfl
@[simp] theorem setItem_sndPtr (i : Fin 32) (q : QueueItem) : (setItem i q s).sndPtr = s.sndPtr := rfl
@[simp] theorem setItem_seqCtr (i : Fin 32) (q : QueueItem) : (setItem i q s).seqCtr = s.seqCtr := rfl
@[simp] theorem setItem_devStatus0 (i : Fin 32) (q : QueueItem) : (setItem i q s).devStatus0 = s.devStatus0 := rfl
@[simp] theorem setItem_devStatus1 (i : Fin 32) (q : QueueItem) : (setItem i q s).devStatus1 = s.devStatus1 := rfl
@[simp] theorem setItem_failCtr (i : Fin 32) (q : QueueItem) : (setItem i q s).failCtr = s.failCtr := rfl
@[simp] theorem setItem_pq (i : Fin 32) (q : QueueItem) : (setItem i q s).pq = s.pq := rfl
@[simp] theorem setItem_pqRd (i : Fin 32) (q : QueueItem) : (setItem i q s).pqRd = s.pqRd := rfl
@[simp] theorem setItem_pqCnt (i : Fin 32) (q : QueueItem) : (setItem i q s).pqCnt = s.pqCnt := rfl
@[simp] theorem setItem_timerArmed (i : Fin 32) (q : QueueItem) : (setItem i q s).timerArmed = s.timerArmed := rfl
@[simp] theorem setItem_timerDue (i : Fin 32) (q : QueueItem) : (setItem i q s).timerDue = s.timerDue := rfl
@[simp] theorem setItem_tLastTx (i : Fin 32) (q : QueueItem) : (setItem i q s).tLastTx = s.tLastTx := rfl
@[simp] theorem setItem_tLastConfirm (i : Fin 32) (q : QueueItem) : (setItem i q s).tLastConfirm = s.tLastConfirm := rfl
@[simp] theorem setItem_linkUp (i : Fin 32) (q : QueueItem) : (setItem i q s).linkUp = s.linkUp := rfl
@[simp] theorem setItem_tx (i : Fin 32) (q : QueueItem) : (setItem i q s).tx = s.tx := rfl
@[simp] theorem setItem_ev (i : Fin 32) (q : QueueItem) : (setItem i q s).ev = s.ev := rfl
@[simp] theorem setItem_decW (i : Fin 32) (q : QueueItem) : (setItem i q s).decW = s.decW := rfl
@[simp] theorem setItem_encW (i : Fin 32) (q : QueueItem) : (setItem i q s).encW = s.encW := rfl

@[simp] theorem setItemState_cfg (i : Fin 32) (st : ItemState) : (setItemState i st s).cfg = s.cfg := rfl
@[simp] theorem setItemState_inbox (i : Fin 32) (st : ItemState) : (setItemState i st s).inbox = s.inbox := rfl
@[simp] theorem setItemState_resp (i : Fin 32) (st : ItemState) : (setItemState i st s).resp = s.resp := rfl
@[simp] theorem setItemState_rxb (i : Fin 32) (st : ItemState) : (setItemState i st s).rxb = s.rxb := rfl
@[simp] theorem setItemState_rxLen (i : Fin 32) (st : ItemState) : (setItemState i st s).rxLen = s.rxLen := rfl
@[simp] theorem setItemState_rxEsc (i : Fin 32) (st : ItemState) : (setItemState i st s).rxEsc = s.rxEsc := rfl
@[simp] theorem setItemState_rxDrop (i : Fin 32) (st : ItemState) : (setItemState i st s).rxDrop = s.rxDrop := rfl
@[simp] theorem setItemState_rxOvf (i : Fin 32) (st : ItemState) : (setItemState i st s).rxOvf = s.rxOvf := rfl
@[simp] theorem setItemState_lastPerr (i : Fin 32) (st : ItemState) : (setItemState i st s).lastPerr = s.lastPerr := rfl
@[simp] theorem setItemState_wrPtr (i : Fin 32) (st : ItemState) : (setItemState i st s).wrPtr = s.wrPtr := rfl
@[simp] theorem setItemState_sndPtr (i : Fin 32) (st : ItemState) : (setItemState i st s).sndPtr = s.sndPtr := rfl
@[simp] theorem setItemState_seqCtr (i : Fin 32) (st : ItemState) : (setItemState i st s).seqCtr = s.seqCtr := rfl
@[simp] theorem setItemState_devStatus0 (i : Fin 32) (st : ItemState) : (setItemState i st s).devStatus0 = s.devStatus0 := rfl
@[simp] theorem setItemState_devStatus1 (i : Fin 32) (st : ItemState) : (setItemState i st s).devStatus1 = s.devStatus1 := rfl
@[simp] theorem setItemState_failCtr (i : Fin 32) (st : ItemState) : (setItemState i st s).failCtr = s.failCtr := rfl
@[simp] theorem setItemState_pq (i : Fin 32) (st : ItemState) : (setItemState i st s).pq = s.pq := rfl
@[simp] theorem setItemState_pqRd (i : Fin 32) (st : ItemState) : (setItemState i st s).pqRd = s.pqRd := rfl
@[simp] theorem setItemState_pqCnt (i : Fin 32) (st : ItemState) : (setItemState i st s).pqCnt = s.pqCnt := rfl
@[simp] theorem setItemState_timerArmed (i : Fin 32) (st : ItemState) : (setItemState i st s).timerArmed = s.timerArmed := rfl
@[simp] theorem setItemState_timerDue (i : Fin 32) (st : ItemState) : (setItemState i st s).timerDue = s.timerDue := rfl
@[simp] theorem setItemState_tLastTx (i : Fin 32) (st : ItemState) : (setItemState i st s).tLastTx = s.tLastTx := rfl
@[simp] theorem setItemState_tLastConfirm (i : Fin 32) (st : ItemState) : (setItemState i st s).tLastConfirm = s.tLastConfirm := rfl
@[simp] theorem setItemState_linkUp (i : Fin 32) (st : ItemState) : (setItemState i st s).linkUp = s.linkUp := rfl
@[simp] theorem setItemState_tx (i : Fin 32) (st : ItemState) : (setItemState i st s).tx = s.tx := rfl
@[simp] theorem setItemState_ev (i : Fin 32) (st : ItemState) : (setItemState i st s).ev = s.ev := rfl
@[simp] theorem setItemState_decW (i : Fin 32) (st : ItemState) : (setItemState i st s).decW = s.decW := rfl
@[simp] theorem setItemState_encW (i : Fin 32) (st : ItemState) : (setItemState i st s).encW = s.encW := rfl

@[simp] theorem armTimer_cfg (t : Time) : (armTimer t s).cfg = s.cfg := rfl
@[simp] theorem armTimer_inbox (t : Time) : (armTimer t s).inbox = s.inbox := rfl
@[simp] theorem armTimer_resp (t : Time) : (armTimer t s).resp = s.resp := rfl
@[simp] theorem armTimer_rxb (t : Time) : (armTimer t s).rxb = s.rxb := rfl
@[simp] theorem armTimer_rxLen (t : Time) : (armTimer t s).rxLen = s.rxLen := rfl
@[simp] theorem armTimer_rxEsc (t : Time) : (armTimer t s).rxEsc = s.rxEsc := rfl
@[simp] theorem armTimer_rxDrop (t : Time) : (armTimer t s).rxDrop = s.rxDrop := rfl
@[simp] theorem armTimer_rxOvf (t : Time) : (armTimer t s).rxOvf = s.rxOvf := rfl
@[simp] theorem armTimer_lastPerr (t : Time) : (armTimer t s).lastPerr = s.lastPerr := rfl
@[simp] theorem armTimer_cq (t : Time) : (armTimer t s).cq = s.cq := rfl
@[simp] theorem armTimer_wrPtr (t : Time) : (armTimer t s).wrPtr = s.wrPtr := rfl
@[simp] theorem armTimer_sndPtr (t : Time) : (armTimer t s).sndPtr = s.sndPtr := rfl
@[simp] theorem armTimer_seqCtr (t : Time) : (armTimer t s).seqCtr = s.seqCtr := rfl
@[simp] theorem armTimer_devStatus0 (t : Time) : (armTimer t s).devStatus0 = s.devStatus0 := rfl
@[simp] theorem armTimer_devStatus1 (t : Time) : (armTimer t s).devStatus1 = s.devStatus1 := rfl
@[simp] theorem armTimer_failCtr (t : Time) : (armTimer t s).failCtr = s.failCtr := rfl
@[simp] theorem armTimer_pq (t : Time) : (armTimer t s).pq = s.pq := rfl
@[simp] theorem armTimer_pqRd (t : Time) : (armTimer t s).pqRd = s.pqRd := rfl
@[simp] theorem armTimer_pqCnt (t : Time) : (armTimer t s).pqCnt = s.pqCnt := rfl
@[simp] theorem armTimer_timerArmed (t : Time) : (armTimer t s).timerArmed = true := rfl
@[simp] theorem armTimer_timerDue (t : Time) : (armTimer t s).timerDue = t := rfl
@[simp] theorem armTimer_tLastTx (t : Time) : (armTimer t s).tLastTx = s.tLastTx := rfl
@[simp] theorem armTimer_tLastConfirm (t : Time) : (armTimer t s).tLastConfirm = s.tLastConfirm := rfl
@[simp] theorem armTimer_linkUp (t : Time) : (armTimer t s).linkUp = s.linkUp := rfl
@[simp] theorem armTimer_tx (t : Time) : (armTimer t s).tx = s.tx := rfl
@[simp] theorem armTimer_ev (t : Time) : (armTimer t s).ev = s.ev := rfl
@[simp] theorem armTimer_decW (t : Time) : (armTimer t s).decW = s.decW := rfl
@[simp] theorem armTimer_encW (t : Time) : (armTimer t s).encW = s.encW := rfl

@[simp] theorem disarmTimer_cfg : (disarmTimer s).cfg = s.cfg := rfl
@[simp] theorem disarmTimer_inbox : (disarmTimer s).inbox = s.inbox := rfl
@[simp] theorem disarmTimer_resp : (disarmTimer s).resp = s.resp := rfl
@[simp] theorem disarmTimer_rxb : (disarmTimer s).rxb = s.rxb := rfl
@[simp] theorem disarmTimer_rxLen : (disarmTimer s).rxLen = s.rxLen := rfl
@[simp] theorem disarmTimer_rxEsc : (disarmTimer s).rxEsc = s.rxEsc := rfl
@[simp] theorem disarmTimer_rxDrop : (disarmTimer s).rxDrop = s.rxDrop := rfl
@[simp] theorem disarmTimer_rxOvf : (disarmTimer s).rxOvf = s.rxOvf := rfl
@[simp] theorem disarmTimer_lastPerr : (disarmTimer s).lastPerr = s.lastPerr := rfl
@[simp] theorem disarmTimer_cq : (disarmTimer s).cq = s.cq := rfl
@[simp] theorem disarmTimer_wrPtr : (disarmTimer s).wrPtr = s.wrPtr := rfl
@[simp] theorem disarmTimer_sndPtr : (disarmTimer s).sndPtr = s.sndPtr := rfl
@[simp] theorem disarmTimer_seqCtr : (disarmTimer s).seqCtr = s.seqCtr := rfl
@[simp] theorem disarmTimer_devStatus0 : (disarmTimer s).devStatus0 = s.devStatus0 := rfl
@[simp] theorem disarmTimer_devStatus1 : (disarmTimer s).devStatus1 = s.devStatus1 := rfl
@[simp] theorem disarmTimer_failCtr : (disarmTimer s).failCtr = s.failCtr := rfl
@[simp] theorem disarmTimer_pq : (disarmTimer s).pq = s.pq := rfl
@[simp] theorem disarmTimer_pqRd : (disarmTimer s).pqRd = s.pqRd := rfl
@[simp] theorem disarmTimer_pqCnt : (disarmTimer s).pqCnt = s.pqCnt := rfl
@[simp] theorem disarmTimer_timerArmed : (disarmTimer s).timerArmed = false := rfl
@[simp] theorem disarmTimer_timerDue : (disarmTimer s).timerDue = s.timerDue := rfl
@[simp] theorem disarmTimer_tLastTx : (disarmTimer s).tLastTx = s.tLastTx := rfl
@[simp] theorem disarmTimer_tLastConfirm : (disarmTimer s).tLastConfirm = s.tLastConfirm := rfl
@[simp] theorem disarmTimer_linkUp : (disarmTimer s).linkUp = s.linkUp := rfl
@[simp] theorem disarmTimer_tx : (disarmTimer s).tx = s.tx := rfl
@[simp] theorem disarmTimer_ev : (disarmTimer s).ev = s.ev := rfl
@[simp] theorem disarmTimer_decW : (disarmTimer s).decW = s.decW := rfl
@[simp] theorem disarmTimer_encW : (disarmTimer s).encW = s.encW := rfl

end Sys2Proof.Machine
end

