-- ==== Sys2Proof/Laws/Ops.lean ====
section
/-! SUPPORT. One lemma for each shared operation that says what it can do; later proofs cite these and do
not unfold the operation. -/

namespace Sys2Proof.Machine

variable (s : State)

/-! ### Slots -/

@[simp] theorem mem_slots (i : Fin 32) : i ∈ slots := List.mem_finRange i

theorem mem_slotsFrom (p i : Fin 32) : i ∈ slotsFrom p := by
  refine List.mem_map.2 ⟨i - p, mem_slots _, ?_⟩
  simp

theorem free_iff (i : Fin 32) : free s i = true ↔ s.cq[i].state = .init := by simp [free]

theorem findFree_some {j : Fin 32} (h : findFree s = some j) : s.cq[j].state = .init :=
  (free_iff s j).1 (List.find?_some h)

theorem findFree_none (h : findFree s = none) (i : Fin 32) : s.cq[i].state ≠ .init := by
  have := List.find?_eq_none.1 h i (mem_slotsFrom _ i)
  rwa [free_iff] at this

@[simp] theorem setItem_at_same (i : Fin 32) (q : QueueItem) : (setItem i q s).cq[i] = q := by
  simp [setItem]

theorem setItem_at_other {i j : Fin 32} (h : i ≠ j) (q : QueueItem) :
    (setItem i q s).cq[j] = s.cq[j] := by
  have : i.val ≠ j.val := fun e => h (Fin.ext e)
  simp [setItem, Vector.getElem_set_ne _ _ this]

theorem setItem_at (i j : Fin 32) (q : QueueItem) :
    (setItem i q s).cq[j] = if i = j then q else s.cq[j] := by
  split
  · next h => subst h; simp
  · next h => exact setItem_at_other s h q

theorem setItemState_at (i j : Fin 32) (st : ItemState) :
    (setItemState i st s).cq[j] = if i = j then { s.cq[j] with state := st } else s.cq[j] := by
  unfold setItemState
  rw [setItem_at]
  split
  · next h => subst h; simp
  · rfl

/-! ### Events -/

/-- `emitDone` only appends to `ev`: nothing for the target `NONE`, one `Done` otherwise. -/
theorem emitDone_eq (target : Option Dest) (code : Completion) (rsp : Option Command) :
    emitDone target code rsp s =
      { s with ev := s.ev ++ (target.map (fun d => Event.done d code rsp)).toList } := by
  cases target <;> simp [emitDone, emit]

/-! ### The receiver -/

/-- `rx_append` with room: one byte stored at offset `rx_len`. -/
theorem rxAppend_room (v : Byte) (h : s.rxLen < s.cfg.rxCap) :
    rxAppend v s = { s with rxb := memWrite s.rxb s.rxLen v, rxLen := s.rxLen + 1 } := by
  simp [rxAppend, h]

/-- `rx_append` without room: the byte is dropped. -/
theorem rxAppend_full (v : Byte) (h : ¬ s.rxLen < s.cfg.rxCap) :
    rxAppend v s = { s with rxOvf := true } := by
  simp [rxAppend, h]

/-- Two states agree outside the receiver's fields and the result. -/
def sameButReceiver (s t : State) : Prop :=
  t = { s with rxb := t.rxb, rxLen := t.rxLen, rxEsc := t.rxEsc, rxDrop := t.rxDrop,
               rxOvf := t.rxOvf, resp := t.resp }

theorem rxAppend_sameButReceiver (v : Byte) : sameButReceiver s (rxAppend v s) := by
  unfold rxAppend sameButReceiver; split <;> rfl

/-- A receiver step that goes on touches the receiver's fields only. -/
theorem feed_sameButReceiver {b : Byte} {t : State} (h : feed b s = .next t) :
    sameButReceiver s t := by
  unfold feed at h
  cases hk : selectFeed (feedKey s b) <;> rw [hk] at h <;>
    simp only [feedStep, execFeedResync, execFeedSkip, execFeedFlush, execFeedEnd, execFeedEsc,
      execFeedTmark, execFeedTesc, execFeedBadesc, execFeedData, fedNothing, rxAppend] at h <;>
    (repeat' split at h) <;>
    first
    | (injection h with h; subst h; rfl)
    | cases h

/-- A receiver step is never refused. -/
theorem feed_not_refused (b : Byte) (r : Refusal) : feed b s ≠ .refused r := by
  unfold feed
  cases selectFeed (feedKey s b) <;>
    simp only [feedStep, execFeedResync, execFeedSkip, execFeedFlush, execFeedEnd, execFeedEsc,
      execFeedTmark, execFeedTesc, execFeedBadesc, execFeedData, fedNothing] <;>
    (repeat' split) <;> simp

/-! ### The CommandQueue -/

/-- Everything `enq_core` can do: report a full queue, reject the command, or create an item in the
first free slot. -/
theorem enqCore_cases (cmd : Command) (target : Option Dest) (now : Time) :
    (findFree s = none ∧ enqCore cmd target now s = (s, .error .queueFull)) ∨
    (∃ j, findFree s = some j ∧ encodes s cmd = false ∧
      enqCore cmd target now s = (s, .error .rejected)) ∨
    (∃ j, findFree s = some j ∧ encodes s cmd = true ∧
      enqCore cmd target now s = (enqWrite j cmd target now s, .ok j)) := by
  unfold enqCore
  cases hf : findFree s with
  | none => exact .inl ⟨rfl, rfl⟩
  | some j =>
    cases he : encodes s cmd with
    | false => exact .inr (.inl ⟨j, rfl, rfl, by simp⟩)
    | true => exact .inr (.inr ⟨j, rfl, rfl, by simp⟩)

/-- The fields an admitted enqueue writes. -/
theorem enqWrite_eq (j : Fin 32) (cmd : Command) (target : Option Dest) (now : Time) :
    enqWrite j cmd target now s =
      { s with
        seqCtr := nextSeq s
        cq := s.cq.set j (newItem cmd (nextSeq s) target now)
        wrPtr := j + 1
        timerArmed := if wasIdle s then true else s.timerArmed
        timerDue := if wasIdle s then now else s.timerDue } := by
  unfold enqWrite
  cases wasIdle s <;> rfl

/-- The search for a sequence number reads the items only (R183). -/
theorem seqSearch_congr {s t : State} (h : t.cq = s.cq) :
    ∀ (fuel : Nat) (n : Byte), seqSearch t fuel n = seqSearch s fuel n
  | 0, _ => rfl
  | fuel + 1, n => by
    have hu : seqInUse t n = seqInUse s n := by unfold seqInUse free; rw [h]
    simp only [seqSearch, hu, seqSearch_congr h fuel (n + 1)]

/-- The number handed out depends on the items and the counter only (R183). -/
theorem nextSeq_congr {s t : State} (h : t.cq = s.cq) (hc : t.seqCtr = s.seqCtr) :
    nextSeq t = nextSeq s := by
  unfold nextSeq; rw [hc]; exact seqSearch_congr h _ _

/-! ### The failure counter -/

/-- The counter one higher is the saturating sum (R39). -/
theorem failCtrUp_toNat (n : BitVec 8) : (failCtrUp n).toNat = min 255 (n.toNat + 1) := by
  unfold failCtrUp
  have := n.isLt
  split
  · rw [BitVec.toNat_add]
    simp
    omega
  · omega

/-- Counting a failure writes `fail_ctr` and appends at most one event (R203). -/
theorem countFailure_eq :
    countFailure s = { s with
      failCtr := failCtrUp s.failCtr
      ev := s.ev ++ if crossesThreshold s.cfg s.failCtr then [.teardownReq] else [] } := by
  unfold countFailure
  split <;> simp_all [emit]

/-- `TeardownReq` is never emitted by a saturated counter (D28, U19). -/
theorem crossesThreshold_saturated (c : Config) : crossesThreshold c 255 = false := by
  simp [crossesThreshold]

/-! ### The loops of the sweep and of kill

`hideQueue s` is `s` with the fields the loops write made equal in every state, so that an equation
between two hidden states says that every other field is the same. -/

/-- `s` with `cq`, `fail_ctr` and `ev` hidden. -/
def hideQueue (s : State) : State :=
  { s with cq := Vector.replicate 32 QueueItem.reset, failCtr := 0, ev := [] }

theorem sweepSlot_frame (now : Time) (i : Fin 32) :
    hideQueue (sweepSlot now s i) = hideQueue s := by
  unfold sweepSlot
  split
  · split
    · rfl
    · rw [expireItem, countFailure_eq, emitDone_eq]
      rfl
  · rfl

theorem sweepFold_frame (now : Time) (l : List (Fin 32)) :
    ∀ s : State, hideQueue (l.foldl (sweepSlot now) s) = hideQueue s := by
  induction l with
  | nil => intro s; rfl
  | cons i l ih => intro s; exact (ih _).trans (sweepSlot_frame s now i)

/-- The sweep writes `cq`, `fail_ctr` and `ev` only (R201). -/
theorem sweep_frame (now : Time) : hideQueue (sweep now s) = hideQueue s :=
  sweepFold_frame now slots s

theorem killSlot_frame (i : Fin 32) :
    hideQueue (killSlot s i) = hideQueue s ∧ (killSlot s i).failCtr = s.failCtr := by
  unfold killSlot
  split
  · exact ⟨rfl, rfl⟩
  · rw [emitDone_eq]; exact ⟨rfl, rfl⟩

/-- The slot loop of kill writes `cq` and `ev` only (R190). -/
theorem killFold_frame (l : List (Fin 32)) :
    ∀ s : State, hideQueue (l.foldl killSlot s) = hideQueue s ∧
      (l.foldl killSlot s).failCtr = s.failCtr := by
  induction l with
  | nil => intro s; exact ⟨rfl, rfl⟩
  | cons i l ih =>
    intro s
    exact ⟨(ih _).1.trans (killSlot_frame s i).1, (ih _).2.trans (killSlot_frame s i).2⟩

/-- The pending-request loop of kill appends one `Done` each, in order. -/
theorem killRequests_eq (l : List Nat) :
    ∀ s : State, l.foldl killRequest s =
      { s with ev := s.ev ++ l.map (fun r => Event.done (.bulk r) .disconnected none) } := by
  induction l with
  | nil => intro s; simp
  | cons r l ih =>
    intro s
    simp only [List.foldl_cons, List.map_cons]
    rw [ih]
    simp [killRequest, emit, List.append_assoc]

/-! ### Generation, sending, dispatch -/

/-- `s` with what an enqueue can write hidden: the queue, its pointer, the counter, the timer. -/
def hideEnqueue (s : State) : State :=
  { hideQueue s with seqCtr := 0, wrPtr := 0, timerArmed := false, timerDue := 0 }

/-- An enqueue, whatever its outcome, writes nothing but what `hideEnqueue` hides (R184 Flags). -/
theorem enqCore_frame (cmd : Command) (target : Option Dest) (now : Time) :
    hideEnqueue (enqCore cmd target now s).1 = hideEnqueue s := by
  rcases enqCore_cases s cmd target now with ⟨_, h⟩ | ⟨j, _, _, h⟩ | ⟨j, _, _, h⟩
  · rw [h]
  · rw [h]
  · rw [h]; simp only [enqWrite_eq]; rfl

/-- `s` with the PendingRequestQueue's read index and count hidden as well. -/
def hideGenerate (s : State) : State := { hideEnqueue s with pqRd := 0, pqCnt := 0 }

theorem hideGenerate_of_hideEnqueue {s t : State} (h : hideEnqueue t = hideEnqueue s) :
    hideGenerate t = hideGenerate s := by
  unfold hideGenerate; rw [h]

/-- Generation never transmits and never touches the receiver, the link or the clocks (R204). -/
theorem generate_frame (now : Time) (answer : Option Command) :
    hideGenerate (generate now answer s) = hideGenerate s := by
  unfold generate
  split
  · exact hideGenerate_of_hideEnqueue (enqCore_frame _ _ _ _)
  · split
    · unfold genFetch
      split
      · exact hideGenerate_of_hideEnqueue (enqCore_frame _ _ _ _)
      · split
        · exact hideGenerate_of_hideEnqueue (enqCore_frame _ _ _ _)
        · rfl
    · split
      · unfold genBulk
        cases answer with
        | none => rfl
        | some c =>
          simp only
          have hp : hideGenerate (pqPop s) = hideGenerate s := rfl
          have he := hideGenerate_of_hideEnqueue
            (enqCore_frame (pqPop s) c (some (.bulk s.pq[s.pqRd])) now)
          rw [hp] at he
          cases hc : enqCore c (some (.bulk s.pq[s.pqRd])) now (pqPop s) with
          | mk s1 r =>
            rw [hc] at he
            cases r with
            | ok j => exact he
            | error e => exact he
      · rfl

/-- Everything the send step can do: nothing, or hand one item's whole frame to the Transport. -/
theorem sendOne_cases (now : Time) (txOk : Bool) :
    sendOne now txOk s = s ∨
    ∃ j, oldestWaiting s = some j ∧ s.cq[j].state = .waitSend ∧ inflight s < window ∧
      txOk = true ∧ sendOne now txOk s = transmit now j s := by
  unfold sendOne
  cases h : oldestWaiting s with
  | none => exact .inl rfl
  | some j =>
    have hj : s.cq[j].state = .waitSend := by
      have := List.find?_some h
      simpa using this
    simp only
    split
    · next hc =>
      simp only [Bool.and_eq_true, decide_eq_true_eq] at hc
      exact .inr ⟨j, rfl, hj, hc.1, hc.2, rfl⟩
    · exact .inl rfl

/-- The fields a transmission writes (R208). -/
theorem transmit_eq (now : Time) (j : Fin 32) :
    transmit now j s =
      { s with
        tx := s.tx ++ itemFrame s j
        cq := s.cq.set j { s.cq[j] with state := .waitConfirm, tTx := now }
        tLastTx := now
        sndPtr := j + 1 } := rfl

/-- `s` with what a dispatch can write hidden. -/
def hideDispatch (s : State) : State :=
  { hideQueue s with tLastConfirm := 0, devStatus0 := 0, devStatus1 := 0 }

/-- Dispatch writes `cq`, `fail_ctr`, `t_last_confirm`, `dev_status` and `ev` only (R211 Flags). -/
theorem dispatch_frame (cmd : Command) (now : Time) :
    hideDispatch (dispatch cmd now s) = hideDispatch s := by
  have hc : hideDispatch (confirmMatch cmd now s) = hideDispatch s := by
    unfold confirmMatch
    split
    · rfl
    · rw [emitDone_eq]; rfl
  have hu : ∀ t : State, hideDispatch (updateStatus cmd t) = hideDispatch t := by
    intro t
    unfold updateStatus
    split
    · rfl
    · split <;> rfl
  exact (hu _).trans hc

/-- A delivered payload is dispatched or its decode error recorded (R230). -/
theorem receive_cases (p : List Byte) (now : Time) :
    (∃ cmd, ccDecode s.cfg p = .ok cmd ∧ receive p now s = dispatch cmd now s) ∨
    (∃ e, ccDecode s.cfg p = .error e ∧ receive p now s = { s with lastPerr := e.code }) := by
  unfold receive
  cases ccDecode s.cfg p with
  | ok cmd => exact .inl ⟨cmd, rfl, rfl⟩
  | error e => exact .inr ⟨e, rfl, rfl⟩

/-! ### Bytes -/

@[simp] theorem leBytes_length : ∀ n v : Nat, (leBytes n v).length = n
  | 0, _ => rfl
  | n + 1, v => by simp [leBytes, leBytes_length n (v / 256)]

/-- `unle` undoes `le_N` on the values `N` bytes hold (R16). -/
theorem unle_leBytes : ∀ n v : Nat, unle (leBytes n v) = v % 256 ^ n
  | 0, v => by simp [leBytes, unle, Nat.mod_one]
  | n + 1, v => by
    have h : v % 256 ^ (n + 1) = v % 256 + 256 * (v / 256 % 256 ^ n) := by
      rw [Nat.pow_succ, Nat.mul_comm (256 ^ n) 256, Nat.mod_mul]
    simp only [leBytes, unle, unle_leBytes n, BitVec.toNat_ofNat]
    exact h.symm

theorem unle_lt : ∀ bs : List Byte, unle bs < 256 ^ bs.length
  | [] => by simp [unle]
  | b :: bs => by
    have h1 := unle_lt bs
    have h2 := b.isLt
    simp only [unle, List.length_cons, Nat.pow_succ]
    omega

end Sys2Proof.Machine
end

