-- ==== Sys2Proof/Tests/Slice0.lean ====
section
/-! SUPPORT. The model's own tests: refused ill-formed terms, words written out from the encoding rules,
one step of each operation on the spec's own examples, and a witness for the premises of each
statement. -/

set_option Elab.async false

namespace Sys2Proof.Tests

open Sys2Proof Sys2Proof.Machine Sys2Proof.Safety

/-! ### Well-formed terms (R93, R95, R96) -/

theorem test_wf_skip_marker_refused : (Instr.feedSkip false 0xC0).wellFormed = false := by decide
theorem test_wf_badesc_marker_refused : (Instr.feedBadesc 0xC0).wellFormed = false := by decide
theorem test_wf_badesc_escape_refused : (Instr.feedBadesc 0xDB).wellFormed = false := by decide
theorem test_wf_badesc_tmark_refused : (Instr.feedBadesc 0xDC).wellFormed = false := by decide
theorem test_wf_badesc_tesc_refused : (Instr.feedBadesc 0xDD).wellFormed = false := by decide
theorem test_wf_data_marker_refused : (Instr.feedData 0xC0).wellFormed = false := by decide
theorem test_wf_data_escape_refused : (Instr.feedData 0xDB).wellFormed = false := by decide
theorem test_wf_dec_known_character_refused : (Instr.decBad 0x70).wellFormed = false := by decide
theorem test_wf_enc_known_character_refused : (Instr.encBad 0x31).wellFormed = false := by decide
theorem test_wf_boundaries_accepted :
    [Instr.feedSkip true 0xDB, .feedBadesc 0xDE, .feedData 0xC1, .decBad 0x78, .encBad 0x30].all
      Instr.wellFormed = true := by decide

/-! ### Decoding of words written out from the tables of R93, R95 and R99 -/

/-- What the decoder makes of a transfer. -/
def reads (t : Transfer) (i : Instr) : Bool :=
  match decode t with
  | .ok j => decide (j = i)
  | .error _ => false

/-- R93: bit 9 `rx_drop`, bit 8 `rx_esc`, bits 7:0 the byte. -/
theorem test_decode_receiver_words :
    [ reads (.feed 0b1011000000) (.feedResync false), reads (.feed 0b1111000000) (.feedResync true),
      reads (.feed 0b1000000110) (.feedSkip false 0x06), reads (.feed 0b0111000000) .feedFlush,
      reads (.feed 0b0011000000) .feedEnd, reads (.feed 0b0011011011) (.feedEsc false),
      reads (.feed 0b0111011011) (.feedEsc true), reads (.feed 0b0111011100) .feedTmark,
      reads (.feed 0b0111011101) .feedTesc, reads (.feed 0b0100000101) (.feedBadesc 0x05),
      reads (.feed 0b0000000111) (.feedData 0x07),
      reads (.feed 0b0011011100) (.feedData 0xDC) ].all id = true := by decide

/-- R95: the ten characters and one reserved character, met by the decoder. -/
theorem test_decode_characters_decoder :
    [ reads (.descDec 0b00110001) .decS1, reads (.descDec 0b00110010) .decS2,
      reads (.descDec 0b00110100) .decS4, reads (.descDec 0b00111000) .decS8,
      reads (.descDec 0b01110011) .decStr, reads (.descDec 0b01100001) .decR1,
      reads (.descDec 0b01100010) .decR2, reads (.descDec 0b01100011) .decR4,
      reads (.descDec 0b01100100) .decR8, reads (.descDec 0b01110000) .decRaw,
      reads (.descDec 0b01111000) (.decBad 0x78) ].all id = true := by decide

/-- R95: the same, met by the encoder. -/
theorem test_decode_characters_encoder :
    [ reads (.descEnc 0b00110001 (.raw [])) (.encS1 (.raw [])),
      reads (.descEnc 0b00110010 (.raw [])) (.encS2 (.raw [])),
      reads (.descEnc 0b00110100 (.raw [])) (.encS4 (.raw [])),
      reads (.descEnc 0b00111000 (.raw [])) (.encS8 (.raw [])),
      reads (.descEnc 0b01110011 (.cstr [1])) (.encStr (.cstr [1])),
      reads (.descEnc 0b01100001 (.raw [])) (.encR1 (.raw [])),
      reads (.descEnc 0b01100010 (.raw [])) (.encR2 (.raw [])),
      reads (.descEnc 0b01100011 (.raw [])) (.encR4 (.raw [])),
      reads (.descEnc 0b01100100 (.raw [])) (.encR8 (.raw [])),
      reads (.descEnc 0b01110000 (.raw [2])) (.encRaw (.raw [2])),
      reads (.descEnc 0b01111000 (.raw [])) (.encBad 0x78) ].all id = true := by decide

/-- The command of vector D1 and G1. -/
def ack : Command := { id := 0x01, seq := 0x09, status := 0, fields := [] }

/-- R99: the `HOST` ops, the `XPT` codes, a byte on `RX`, the timer. -/
theorem test_decode_channels :
    [ reads (.host 0b00001 { HostOperands.zero with cmd := ack, target := 0x0A } 5) (.sqEnq ack 0x0A 5),
      reads (.host 0b00010 { HostOperands.zero with reqId := 9 } 0) (.pqPush 9),
      reads (.host 0b00011 { HostOperands.zero with reg := 4 } 0) (.sysRdcsr 4),
      reads (.host 0b00100 .zero 0) .sysClrdiag, reads (.host 0b00101 .zero 0) .sysReset,
      reads (.host 0b01000 { HostOperands.zero with bytes := [7, 1] } 0) (.fcEnc [7, 1]),
      reads (.host 0b01001 { HostOperands.zero with cmd := ack, maxLen := 64 } 0) (.ccEnc ack 64),
      reads (.host 0b01010 { HostOperands.zero with bytes := [7, 1] } 0) (.ccDec [7, 1]),
      reads (.xpt 0b01 0 5) (.evConn 5), reads (.xpt 0b10 0b011 5) (.evDisc 3),
      reads (.rx 0xC0 5) (.rxByte 0xC0 5), reads (.timer 5 true none) (.sqTick 5 true none) ].all id
      = true := by decide

/-- R100: the sub-operations without an encoding. -/
theorem test_decode_sub_operations :
    [ reads (.sub .seq) .sqSeq, reads (.sub .kill) .sqKill, reads (.sub (.sweep 5)) (.tickSweep 5),
      reads (.sub (.gen 5 none)) (.tickGen 5 none), reads (.sub (.send 5 true)) (.tickSend 5 true),
      reads (.sub (.rearm 5)) (.tickRearm 5), reads (.sub (.disp ack 5)) (.sqDisp ack 5) ].all id
      = true := by decide

/-! ### One step of each operation -/

/-- What a view shows of the next state, if there is one. -/
def after {α : Type} (i : Instr) (s : State) (view : State → α) : Option α :=
  match exec i s with
  | .next t => some (view t)
  | .fault _ => none
  | .refused _ => none

/-- `conn @0` from reset: the start of the programs of 95_test_vectors.md section 8. -/
def up : State := emit .connected (connect 0 State.reset)

/-- Cells 0, 1, ... of `RXB` holding the given bytes. -/
def filled (bs : List Byte) : Memory := (List.range bs.length).zip bs

/-- The link is up and the receiver holds the given non-zero bytes. -/
def holding (bs : List Byte) : State := { up with rxb := filled bs, rxLen := bs.length }

/-- The receiver's length, flags and overflow bit, as the vectors of section 4 print them. -/
def receiver (s : State) : Nat × Bool × Bool × Bool := (s.rxLen, s.rxEsc, s.rxDrop, s.rxOvf)

/-- A one-byte command with the id 04. -/
def cmd04 (seq v : Byte) : Command := { id := 0x04, seq := seq, status := 0, fields := [.scalar .w1 v] }

/-- An item with that command for `Ext(10)`. -/
def item04 (st : ItemState) (seq : Byte) (retries : BitVec 8) (tTx : Time) : QueueItem :=
  { state := st, cmd := cmd04 seq 0, retries := retries, tTx := tTx, target := some (.ext 10) }

/-- The link is up and slot 0 holds the item. -/
def withItem (q : QueueItem) : State :=
  { up with cq := up.cq.set 0 q, wrPtr := 1, sndPtr := 1, seqCtr := 1 }

/-- State, sequence number and retries of slot 0. -/
def slot0 (s : State) : ItemState × Byte × BitVec 8 × Time :=
  (s.cq[0].state, s.cq[0].cmd.seq, s.cq[0].retries, s.cq[0].tTx)

/-- Vector E8. -/
theorem test_fc_enc_special_bytes :
    after (.fcEnc [0xC0, 0xDB, 0xDC, 0xDD]) State.reset State.resp =
      some (.bytes [0xC0, 0xDB, 0xDC, 0xDB, 0xDD, 0xDC, 0xDD, 0xAC, 0xFC, 0xC0]) := by decide

/-- Vector E12: a carry into the high byte of the sum. -/
theorem test_fc_enc_carry :
    after (.fcEnc [0x40, 0xC0]) State.reset State.resp =
      some (.bytes [0xC0, 0x40, 0xDB, 0xDC, 0x00, 0xFF, 0xC0]) := by decide

/-- The trace of vector X14, byte `C0` after `07`. -/
theorem test_feed_resync :
    after (.feedResync false) { up with rxDrop := true } receiver = some (0, false, false, false) := by
  decide

/-- The trace of vector X14, byte `06`. -/
theorem test_feed_skip :
    after (.feedSkip false 0x06) { up with rxDrop := true } receiver =
      some (0, false, true, false) := by decide

/-- Vector X13: the marker after `01 02 DB`. -/
theorem test_feed_flush :
    after .feedFlush { holding [1, 2] with rxEsc := true } (fun s => (receiver s, s.resp)) =
      some ((0, false, false, false), .fed none) := by decide

/-- The buffer of vector S2. -/
theorem test_feed_end_good :
    after .feedEnd { up with rxb := [(0, 7), (1, 1), (3, 0xF8), (4, 0xFF)], rxLen := 5 }
      (fun s => (s.rxLen, s.resp)) = some (0, .fed (some [7, 1, 0])) := by decide

/-- Vector X11: the trailer's high byte changed. -/
theorem test_feed_end_bad :
    after .feedEnd { up with rxb := [(0, 7), (1, 1), (3, 0xF8), (4, 0xFE)], rxLen := 5 }
      (fun s => (s.rxLen, s.resp)) = some (0, .fed none) := by decide

/-- Vector X17. -/
theorem test_feed_esc : after (.feedEsc false) up receiver = some (0, true, false, false) := by decide

/-- Vector X6. -/
theorem test_feed_tmark :
    after .feedTmark { up with rxEsc := true } (fun s => (s.rxb, s.rxLen, s.rxEsc)) =
      some ([(0, 0xC0)], 1, false) := by decide

/-- Vector X24: the fifth byte of four. -/
theorem test_feed_tmark_full :
    after .feedTmark { holding [1, 2, 3, 4] with cfg := { t0 with rxCap := 4 }, rxEsc := true }
      (fun s => (s.rxb, receiver s)) =
      some (filled [1, 2, 3, 4], 4, false, false, true) := by decide

/-- Vector X7. -/
theorem test_feed_tesc :
    after .feedTesc { up with rxEsc := true } (fun s => (s.rxb, s.rxLen, s.rxEsc)) =
      some ([(0, 0xDB)], 1, false) := by decide

/-- The trace of vector X14, byte `05`. -/
theorem test_feed_badesc :
    after (.feedBadesc 5) { holding [1, 2] with rxEsc := true } receiver =
      some (0, false, true, false) := by decide

/-- The trace of vector X14, byte `02`. -/
theorem test_feed_data :
    after (.feedData 2) (holding [1]) (fun s => (s.rxb, s.rxLen)) = some ([(0, 1), (1, 2)], 2) := by
  decide

/-- Vector D2. -/
theorem test_cc_dec_little_endian :
    after (.ccDec [7, 1, 0, 9, 0, 0x22, 0, 0x34, 0x12]) State.reset State.resp =
      some (.decoded { id := 7, seq := 1, status := 0,
                       fields := [.scalar .w1 0x22, .scalar .w1 0, .scalar .w2 0x1234] }) := by decide

/-- Vector D12: the id is tested before the stored length. -/
theorem test_cc_dec_unknown_first :
    after (.ccDec [0x55, 1, 0, 0xFF, 0xFF]) State.reset State.resp =
      some (.parseErr .unknownCommand) := by decide

/-- The decoder is at byte `cur` of the buffer of a command with that id. -/
def decoding (id : Byte) (buf : List Byte) (cur : Nat) : State :=
  { State.reset with decW := { buf := buf, id := id, cur := cur, di := 0, fields := [] } }

/-- The fields read so far, the cursor and the result. -/
def decoded (s : State) : List FieldVal × Nat × Resp := (s.decW.fields, s.decW.cur, s.resp)

/-- Vector D28. -/
theorem test_dec_s1 : after .decS1 (decoding 4 [4, 1, 0, 0x5A] 3) decoded =
    some ([.scalar .w1 0x5A], 4, .none) := by decide

/-- Vector D13. -/
theorem test_dec_s1_overflow : after .decS1 (decoding 4 [4, 1, 0, 5, 0] 5) decoded =
    some ([], 5, .parseErr .charFieldOverflow) := by decide

/-- The last field of vector D2. -/
theorem test_dec_s2 : after .decS2 (decoding 7 [7, 1, 0, 9, 0, 0x22, 0, 0x34, 0x12] 7) decoded =
    some ([.scalar .w2 0x1234], 9, .none) := by decide

/-- Vector D26: the half-present field of a status report. -/
theorem test_dec_s2_zero_fill :
    after .decS2 (decoding 7 [7, 2, 0, 8, 0, 0x22, 4, 0x34] 7) decoded =
      some ([.scalar .w2 0], 8, .none) := by decide

/-- The u32 of vector D5. -/
theorem test_dec_s4 : after .decS4 (decoding 0x20 [0xEF, 0xBE, 0xAD, 0xDE] 0) decoded =
    some ([.scalar .w4 0xDEADBEEF], 4, .none) := by decide

/-- The u64 of vector D5. -/
theorem test_dec_s8 : after .decS8 (decoding 0x20 [8, 7, 6, 5, 4, 3, 2, 1] 0) decoded =
    some ([.scalar .w8 0x0102030405060708], 8, .none) := by decide

/-- The string of vector D5. -/
theorem test_dec_str : after .decStr (decoding 0x20 [0x68, 0x69, 0x00, 0x02] 0) decoded =
    some ([.cstr [0x68, 0x69]], 3, .none) := by decide

/-- Vector D19. -/
theorem test_dec_str_unterminated :
    after .decStr (decoding 0x20 [0x20, 1, 0, 7, 0, 0x68, 0x69] 5) decoded =
      some ([], 5, .parseErr .readOverflow) := by decide

/-- By R149. -/
theorem test_dec_r1 : after .decR1 (decoding 0x20 [3, 9, 8, 7] 0) decoded =
    some ([.rep .w1 [9, 8, 7]], 4, .none) := by decide

/-- The repeated u16 of vector D5. -/
theorem test_dec_r2 : after .decR2 (decoding 0x20 [2, 2, 1, 0xDB, 0xC0] 0) decoded =
    some ([.rep .w2 [0x0102, 0xC0DB]], 5, .none) := by decide

/-- Vector D21. -/
theorem test_dec_r2_overflow :
    after .decR2 (decoding 0x20 [0x20, 1, 0, 11, 0, 0x68, 0x69, 0, 2, 1, 2] 8) decoded =
      some ([], 8, .parseErr .readOverflow) := by decide

/-- By R151. -/
theorem test_dec_r4 : after .decR4 (decoding 0x20 [1, 4, 3, 2, 1] 0) decoded =
    some ([.rep .w4 [0x01020304]], 5, .none) := by decide

/-- By R152. -/
theorem test_dec_r8 : after .decR8 (decoding 0x20 [1, 8, 7, 6, 5, 4, 3, 2, 1] 0) decoded =
    some ([.rep .w8 [0x0102030405060708]], 9, .none) := by decide

/-- The raw buffer of vector D3. -/
theorem test_dec_raw_empty :
    after .decRaw (decoding 0x12 [0x12, 5, 0, 10, 0, 0xAB, 0xEF, 0xBE, 0, 0] 8) decoded =
      some ([.raw []], 10, .none) := by decide

/-- Vector D18: the order of the tests. -/
theorem test_dec_raw_order :
    after .decRaw (decoding 0x12 [0x12, 1, 0, 10, 0, 0xAB, 0xEF, 0xBE, 0x21, 0] 8) decoded =
      some ([], 8, .parseErr .dbufLenLargerData) := by decide

/-- Vector D22. -/
theorem test_dec_bad : after (.decBad 0x78) (decoding 0x31 [0x31, 0, 0, 7, 0, 1, 2] 6) decoded =
    some ([], 6, .parseErr .unknownField) := by decide

/-- Vector G7: a `max_len` equal to the length. -/
theorem test_cc_enc_exact_room :
    after (.ccEnc { id := 7, seq := 1, status := 0,
                    fields := [.scalar .w1 0x22, .scalar .w1 0, .scalar .w2 0x1234] } 9)
      State.reset State.resp = some (.bytes [7, 1, 0, 9, 0, 0x22, 0, 0x34, 0x12]) := by decide

/-- Vectors G1 and G14. -/
theorem test_cc_enc_ack_and_count :
    after (.ccEnc ack 3) State.reset State.resp = some (.bytes [1, 9, 0]) ∧
    after (.ccEnc { cmd04 1 0 with fields := [] } 64) State.reset State.resp = some (.bytes []) := by
  decide

/-- The encoder has written `out` and has room up to `max` bytes. -/
def encoding (out : List Byte) (max : Nat) : State :=
  { State.reset with encW := { out := out, maxLen := max, di := 0 } }

/-- The output so far and the result. -/
def encoded (s : State) : List Byte × Resp := (s.encW.out, s.resp)

/-- The field of vector G15. -/
theorem test_enc_s1 : after (.encS1 (.scalar .w1 0x5A)) (encoding [4, 1, 0, 0, 0] 64) encoded =
    some ([4, 1, 0, 0, 0, 0x5A], .none) := by decide

/-- A value of another width fails (R161). -/
theorem test_enc_s1_mismatch :
    after (.encS1 (.scalar .w2 0x5A)) (encoding [4, 1, 0, 0, 0] 64) encoded =
      some ([4, 1, 0, 0, 0], .bytes []) := by decide

/-- The last field of vector G8 does not fit. -/
theorem test_enc_s2_no_room :
    after (.encS2 (.scalar .w2 0x1234)) (encoding [7, 1, 0, 0, 0, 0x22, 0] 8) encoded =
      some ([7, 1, 0, 0, 0, 0x22, 0], .bytes []) := by decide

/-- The last field of vector G7 fits exactly. -/
theorem test_enc_s2 :
    after (.encS2 (.scalar .w2 0x1234)) (encoding [7, 1, 0, 0, 0, 0x22, 0] 9) encoded =
      some ([7, 1, 0, 0, 0, 0x22, 0, 0x34, 0x12], .none) := by decide

/-- The u32 of vector G6. -/
theorem test_enc_s4 : after (.encS4 (.scalar .w4 0xDEADBEEF)) (encoding [] 64) encoded =
    some ([0xEF, 0xBE, 0xAD, 0xDE], .none) := by decide

/-- The u64 of vector G6. -/
theorem test_enc_s8 : after (.encS8 (.scalar .w8 0x0102030405060708)) (encoding [] 64) encoded =
    some ([8, 7, 6, 5, 4, 3, 2, 1], .none) := by decide

/-- The string of vector G6. -/
theorem test_enc_str : after (.encStr (.cstr [0x68, 0x69])) (encoding [] 64) encoded =
    some ([0x68, 0x69, 0x00], .none) := by decide

/-- By R166. -/
theorem test_enc_r1 : after (.encR1 (.rep .w1 [9, 8, 7])) (encoding [] 64) encoded =
    some ([3, 9, 8, 7], .none) := by decide

/-- The repeated u16 of vector G6. -/
theorem test_enc_r2 : after (.encR2 (.rep .w2 [0x0102, 0xC0DB])) (encoding [] 64) encoded =
    some ([2, 2, 1, 0xDB, 0xC0], .none) := by decide

/-- By R168. -/
theorem test_enc_r4 : after (.encR4 (.rep .w4 [0x01020304])) (encoding [] 64) encoded =
    some ([1, 4, 3, 2, 1], .none) := by decide

/-- By R169. -/
theorem test_enc_r8 : after (.encR8 (.rep .w8 [0x0102030405060708])) (encoding [] 64) encoded =
    some ([1, 8, 7, 6, 5, 4, 3, 2, 1], .none) := by decide

/-- The raw buffer of the command of program P5. -/
theorem test_enc_raw : after (.encRaw (.raw [0xAA, 0xBB])) (encoding [] 64) encoded =
    some ([2, 0, 0xAA, 0xBB], .none) := by decide

/-- Vector G5: 33 bytes. -/
theorem test_enc_raw_too_large :
    after (.encRaw (.raw (List.replicate 33 0))) (encoding [] 64) encoded =
      some ([], .bytes []) := by decide

/-- Vector G13. -/
theorem test_enc_bad : after (.encBad 0x78) (encoding [0x31] 64) encoded =
    some ([0x31], .bytes []) := by decide

/-- Vector Q3: 0 is an ordinary sequence number. -/
theorem test_sq_seq_wraps :
    after .sqSeq { up with seqCtr := 0xFF } (fun s => (s.seqCtr, s.resp)) = some (0, .seqNum 0) := by
  decide

/-- Vector Q2: held numbers are skipped. -/
theorem test_sq_seq_skips :
    after .sqSeq
      { up with seqCtr := 0xFE
                cq := (up.cq.set 0 (item04 .waitSend 0xFF 0 0)).set 1 (item04 .waitSend 0 0 0) }
      State.seqCtr = some 1 := by decide

/-- Vector Q1. -/
theorem test_sq_enq :
    after (.sqEnq (cmd04 0 0) 10 1) up (fun s => (s.resp, s.wrPtr, s.timerDue)) =
      some (.okSlot 0, 1, 1) ∧
    after (.sqEnq (cmd04 0 0) 10 1) up slot0 = some (.waitSend, 1, 0, 1) := by decide +kernel

/-- Vector Q5. -/
theorem test_sq_enq_rejected :
    after (.sqEnq { cmd04 0 0 with id := 0x55 } 11 1) up (fun s => (s.resp, s.ev, s.seqCtr, s.wrPtr)) =
      some (.err .rejected, [.connected, .done (.ext 11) .rejected none], 0, 0) := by decide

/-- Program P5's first push. -/
theorem test_pq_push :
    after (.pqPush 9) up (fun s => (s.resp, pqContent s)) = some (.ok, [9]) := by decide

/-- Program P4's seventeenth push. -/
theorem test_pq_push_full :
    after (.pqPush 9) { up with pqCnt := 16 } (fun s => (s.resp, s.pqCnt)) =
      some (.err .pendingQueueFull, 16) := by decide

/-- The order of program P4's completions. -/
theorem test_sq_kill :
    after .sqKill { withItem (item04 .waitConfirm 1 0 0) with pq := up.pq.set 0 9, pqCnt := 1 }
      (fun s => (s.ev, s.cq[0].state, s.pqCnt, s.wrPtr)) =
      some ([.connected, .done (.ext 10) .disconnected none, .done (.bulk 9) .disconnected none],
        .init, 0, 0) := by decide +kernel

/-- Vector Q9 at 101: the item times out and is sent again in one tick. -/
theorem test_sq_tick_resends :
    after (.sqTick 101 true none) (withItem (item04 .waitConfirm 1 0 0))
      (fun s => (slot0 s, s.timerDue, s.tx)) =
      some ((.waitConfirm, 1, 1, 101), 111, [0xC0, 4, 1, 0, 6, 0, 0, 0xF5, 0xFF, 0xC0]) := by decide +kernel

/-- Performed when not enabled the tick does nothing (R200). -/
theorem test_sq_tick_not_due :
    after (.sqTick 5 true none) { withItem (item04 .waitSend 1 0 0) with timerDue := 6 }
      (fun s => (slot0 s, s.timerDue, s.tx)) = some ((.waitSend, 1, 0, 0), 6, []) := by decide

/-- Vector Q9 at 100: the age is not above the timeout. -/
theorem test_tick_sweep_boundary :
    after (.tickSweep 100) (withItem (item04 .waitConfirm 1 0 0)) slot0 =
      some (.waitConfirm, 1, 0, 0) := by decide +kernel

/-- Vector Q10; and a saturated counter, which becomes equal to no threshold (D28, U19). -/
theorem test_tick_sweep_teardown :
    after (.tickSweep 101) { withItem (item04 .waitConfirm 1 2 0) with failCtr := 2 }
      (fun s => (s.ev, s.cq[0].state, s.failCtr)) =
      some ([.connected, .done (.ext 10) .timeout none, .teardownReq], .init, 3) ∧
    after (.tickSweep 101)
      { withItem (item04 .waitConfirm 1 2 0) with failCtr := 255
                                                  cfg := { t0 with failThreshold := 255 } }
      (fun s => (s.ev, s.failCtr)) =
      some ([.connected, .done (.ext 10) .timeout none], 255) := by decide +kernel

/-- Vector Q12 at 1000: the keep-alive. -/
theorem test_tick_gen_keepalive :
    after (.tickGen 1000 none) up (fun s => (s.cq[0].state, s.cq[0].cmd.id, s.cq[0].target, s.seqCtr)) =
      some (.waitSend, 7, none, 1) := by decide

/-- Program P5, tick at 20: a request that does not resolve. -/
theorem test_tick_gen_unresolved :
    after (.tickGen 20 none) { up with devStatus0 := 0x22, pq := up.pq.set 0 0x0A, pqCnt := 1 }
      (fun s => (s.ev, s.pqCnt, s.pqRd)) =
      some ([.connected, .done (.bulk 0x0A) .rejected none], 0, 1) := by decide

/-- Program P2, tick at 0. -/
theorem test_tick_send :
    after (.tickSend 0 true) { withItem (item04 .waitSend 1 0 0) with sndPtr := 0 }
      (fun s => (s.tx, slot0 s, s.sndPtr)) =
      some ([0xC0, 4, 1, 0, 6, 0, 0, 0xF5, 0xFF, 0xC0], (.waitConfirm, 1, 0, 0), 1) := by decide

/-- Vector Q15. -/
theorem test_tick_send_blocked :
    after (.tickSend 0 false) { withItem (item04 .waitSend 1 0 0) with sndPtr := 0 }
      (fun s => (s.tx, slot0 s, s.sndPtr)) = some ([], (.waitSend, 1, 0, 0), 0) := by decide

/-- R210, where the time wraps. -/
theorem test_tick_rearm_wraps :
    after (.tickRearm 0xFFFFFFFF) up (fun s => (s.timerArmed, s.timerDue)) = some (true, 9) := by decide

/-- Vector Q17. -/
theorem test_sq_disp_confirms :
    after (.sqDisp (cmd04 1 0x5A) 5) { withItem (item04 .waitConfirm 1 0 0) with failCtr := 2 }
      (fun s => (s.ev, s.cq[0].state, s.failCtr, s.tLastConfirm)) =
      some ([.connected, .done (.ext 10) .success (some (cmd04 1 0x5A)), .commandInd (cmd04 1 0x5A)],
        .init, 0, 5) := by decide

/-- Vector Q14: an item waiting to be sent is not confirmed. -/
theorem test_sq_disp_unmatched :
    after (.sqDisp (cmd04 1 0x5A) 5) (withItem (item04 .waitSend 1 1 0)) (fun s => (s.ev, slot0 s)) =
      some ([.connected, .commandInd (cmd04 1 0x5A)], (.waitSend, 1, 1, 0)) := by decide

/-- The last byte of a frame whose payload has one byte: a decode error (R230 (b)). -/
theorem test_rx_byte_decode_error :
    after (.rxByte 0xC0 5) (holding [1, 0xFF, 0xFF]) (fun s => (s.lastPerr, s.rxLen, s.ev)) =
      some (1, 0, [.connected]) := by decide

/-- Vector Q20: ignored with the link down. -/
theorem test_rx_byte_link_down :
    after (.rxByte 0x01 5) State.reset (fun s => (s.rxLen, s.ev)) = some (0, []) := by decide

/-- Program P6, `conn @560`. -/
theorem test_ev_conn :
    after (.evConn 560) { State.reset with seqCtr := 3, failCtr := 3, lastPerr := 5 }
      (fun s => (s.linkUp, s.seqCtr, s.failCtr, s.timerDue, s.ev)) =
      some (true, 3, 0, 560, [.connected]) := by decide

/-- Vector Q18: ignored with the link up. -/
theorem test_ev_conn_ignored :
    after (.evConn 50) (withItem (item04 .waitConfirm 1 0 0)) (fun s => (s.tLastTx, s.ev, slot0 s)) =
      some (0, [.connected], (.waitConfirm, 1, 0, 0)) := by decide

/-- Program P4, `disc IoError`. -/
theorem test_ev_disc :
    after (.evDisc 3) (withItem (item04 .waitSend 1 0 0))
      (fun s => (s.ev, s.linkUp, s.timerArmed, s.seqCtr)) =
      some ([.connected, .done (.ext 10) .disconnected none, .disconnected 3], false, false, 1) := by
  decide +kernel

/-- R238. -/
theorem test_sys_reset :
    after .sysReset (withItem (item04 .waitSend 1 0 0)) id = some State.reset := by decide

/-- R239. -/
theorem test_sys_clrdiag :
    after .sysClrdiag { up with rxOvf := true, lastPerr := 9, rxDrop := true }
      (fun s => (s.lastPerr, receiver s)) = some (0, 0, false, true, false) := by decide

/-- Program P7, `rdcsr 0` after a bad escape and a resynchronisation: link and timer bits. -/
theorem test_sys_rdcsr_status : after (.sysRdcsr 0) up State.resp = some (.value 3) := by decide

/-- Vector Q19: register 64 reads as 0. -/
theorem test_sys_rdcsr_unlisted : after (.sysRdcsr 64) up State.resp = some (.value 0) := by decide

/-- Vector Q19: a reserved op. -/
theorem test_step_reserved_op :
    (match step { State.reset with inbox := [.host 0x1F .zero 0] } with
      | .next t => decide (t = { State.reset with resp := .err .badOp })
      | .fault _ => false
      | .refused _ => false) = true := by decide

/-- Every table word the host places runs as the first step after reset. -/
theorem test_fetched_word_runs :
    (match step (State.reset.withFetchWord 16 0x0DB) with
      | .next t => decide (t = { State.reset with rxEsc := true, resp := .fed none })
      | .fault _ => false
      | .refused _ => false) = true := by decide

/-! ### Witnesses: concrete states and operands that meet the premises of each statement, each clause at a
boundary of its range -/

/-- The state with these transfers waiting. -/
def waiting (ts : List Transfer) (s : State) : State := { s with inbox := ts }

theorem witness_StepRunsTheDecodedOperation :
    configOk (waiting [.rx 0xC0 5] up).cfg = true ∧
    (waiting [.rx 0xC0 5] up).inbox = .rx 0xC0 5 :: [] ∧
    decode (.rx 0xC0 5) = .ok (.rxByte 0xC0 5) ∧ (Instr.rxByte 0xC0 5).wellFormed = true :=
  ⟨by decide, rfl, rfl, rfl⟩

theorem witness_ReservedCodesChangeNothing :
    configOk (waiting [.host 0x00 .zero 0] up).cfg = true ∧
    (waiting [.host 0x00 .zero 0] up).inbox = .host 0x00 .zero 0 :: [] ∧
    (waiting [.xpt 0 7 0] up).inbox = .xpt 0 7 0 :: [] ∧
    (∀ op ∈ [(0x00 : BitVec 5), 0x06, 0x07, 0x0B, 0x1F],
      op.toNat ∉ [0x01, 0x02, 0x03, 0x04, 0x05, 0x08, 0x09, 0x0A]) ∧
    ((0 : BitVec 2) = 0 ∨ (0 : BitVec 2) = 3) ∧ ((3 : BitVec 2) = 0 ∨ (3 : BitVec 2) = 3) :=
  ⟨by decide, rfl, rfl, by decide, by decide, by decide⟩

theorem witness_DecodingUndoesEncoding :
    (Instr.feedSkip true 0xDB).wellFormed = true ∧ (Instr.feedBadesc 0xDE).wellFormed = true ∧
    (Instr.feedData 0xC1).wellFormed = true ∧ (Instr.decBad 0x30).wellFormed = true ∧
    (Instr.encBad 0x78).wellFormed = true := by decide

/-- A word for the premises of each clause, in the statement's order. -/
theorem witness_ReceiverStepIsTheFirstMatchingRow :
    (0x3C0 : BitVec 10) &&& 0x2FF = 0x2C0 ∧
    ((0x2C1 : BitVec 10) &&& 0x2FF ≠ 0x2C0 ∧ (0x2C1 : BitVec 10) &&& 0x200 = 0x200) ∧
    ((0x1C0 : BitVec 10) &&& 0x200 ≠ 0x200 ∧ (0x1C0 : BitVec 10) &&& 0x3FF = 0x1C0) ∧
    ((0x0C0 : BitVec 10) &&& 0x200 ≠ 0x200 ∧ (0x0C0 : BitVec 10) &&& 0x3FF = 0x0C0) ∧
    ((0x1DB : BitVec 10) &&& 0x200 ≠ 0x200 ∧ (0x1DB : BitVec 10) &&& 0x2FF = 0x0DB) ∧
    ((0x1DC : BitVec 10) &&& 0x200 ≠ 0x200 ∧ (0x1DC : BitVec 10) &&& 0x3FF = 0x1DC) ∧
    ((0x1DD : BitVec 10) &&& 0x200 ≠ 0x200 ∧ (0x1DD : BitVec 10) &&& 0x3FF = 0x1DD) ∧
    ((0x1DE : BitVec 10) &&& 0x200 ≠ 0x200 ∧ (0x1DE : BitVec 10) &&& 0x3FF ∉ [0x1C0, 0x1DC, 0x1DD] ∧
      (0x1DE : BitVec 10) &&& 0x2FF ≠ 0x0DB ∧ (0x1DE : BitVec 10) &&& 0x300 = 0x100) ∧
    ((0x0DC : BitVec 10) &&& 0x200 ≠ 0x200 ∧ (0x0DC : BitVec 10) &&& 0x3FF ≠ 0x0C0 ∧
      (0x0DC : BitVec 10) &&& 0x2FF ≠ 0x0DB ∧ (0x0DC : BitVec 10) &&& 0x300 = 0x000) := by decide

/-- Flush; escape; bad escape; resynchronise and skip. -/
theorem witness_ReceiverStepsThatOnlyChangeFlags :
    (({ up with rxEsc := true } : State).rxDrop = false ∧ ({ up with rxEsc := true } : State).rxEsc = true) ∧
    up.rxDrop = false ∧ (0xDE : Byte) ∉ [(0xC0 : Byte), 0xDB, 0xDC, 0xDD] ∧
    ({ up with rxDrop := true } : State).rxDrop = true ∧ (0xDB : Byte) ≠ 0xC0 := by decide

/-- The last free byte of the buffer, and the full buffer; the receiver flags of each selection. -/
theorem witness_ReceiverStepsThatStoreAByte :
    ({ up with rxLen := 63 } : State).rxb.wf = true ∧
    ({ up with rxLen := 63 } : State).rxLen < ({ up with rxLen := 63 } : State).cfg.rxCap ∧
    ¬ ({ up with rxLen := 64 } : State).rxLen < ({ up with rxLen := 64 } : State).cfg.rxCap ∧
    ((Instr.feedTmark, (0xC0 : Byte), false) ∈
      [(Instr.feedData 7, (7 : Byte), up.rxEsc), (.feedTmark, (0xC0 : Byte), false),
        (.feedTesc, (0xDB : Byte), false)]) ∧
    (up.rxDrop = false ∧ up.rxEsc = false ∧ (0xDC : Byte) ≠ 0xC0 ∧ (0xDC : Byte) ≠ 0xDB) ∧
    (({ up with rxEsc := true } : State).rxDrop = false ∧
      ({ up with rxEsc := true } : State).rxEsc = true) := by decide

/-- The shortest good frame and one that fills the buffer; one byte too few and a bad sum. -/
theorem witness_FrameEndDeliversACheckedFrameOnly :
    (∀ n ∈ [2, 64], ({ up with rxLen := n } : State).rxLen ≤ up.cfg.rxCap ∧
      2 ≤ n ∧ checksum (rxBytes { up with rxLen := n } (n - 2)) = rxTrailer { up with rxLen := n }) ∧
    ¬ frameGood { up with rxLen := 1 } ∧ ¬ frameGood { up with rxb := [(1, 1)], rxLen := 2 } ∧
    up.rxDrop = false ∧ up.rxEsc = false := by unfold frameGood; decide +kernel

theorem witness_AcceptedFramesSatisfyTheSumEquation :
    ({ up with rxLen := 2 } : State).rxLen ≤ ({ up with rxLen := 2 } : State).cfg.rxCap ∧
    feed 0xC0 { up with rxLen := 2 } = .next { up with rxLen := 0, resp := .fed (some []) } ∧
    delivered { up with rxLen := 0, resp := .fed (some []) } = some [] :=
  ⟨by decide, rfl, rfl⟩

/-- A payload that fills the buffer, from a receiver whose buffer is full and from an empty one. -/
theorem witness_FramesRoundTripThroughTheReceiver :
    ({ up with rxLen := 64 } : State).rxb.wf = true ∧
    ({ up with rxLen := 64 } : State).rxLen ≤ ({ up with rxLen := 64 } : State).cfg.rxCap ∧
    (List.replicate 62 (0xC0 : Byte)).length + 2 ≤ up.cfg.rxCap ∧
    (up.rxLen = 0 ∨ up.rxEsc = true ∨ up.rxDrop = true) := by decide

/-- Vectors X9 to X11 at the first, a middle and the last byte between the markers. -/
theorem witness_ASingleChangedByteIsRejected :
    up.rxb.wf = true ∧ up.rxLen = 0 ∧ up.rxEsc = false ∧ up.rxDrop = false ∧
    ([7, 1, 0] : List Byte).length + 2 ≤ up.cfg.rxCap ∧
    ∀ q ∈ [((2 : Nat), (1 : Byte), (2 : Byte), (7 : Byte)), (3, 0, 1, 1), (5, 0xFF, 0xFE, 0xF8)],
      0 < q.1 ∧ q.1 + 1 < (fcEncode [7, 1, 0]).length ∧
      (fcEncode [7, 1, 0])[q.1]? = some q.2.1 ∧ (fcEncode [7, 1, 0])[q.1 - 1]? = some q.2.2.2 ∧
      q.2.1 ≠ 0xC0 ∧ q.2.1 ≠ 0xDB ∧ q.2.2.1 ≠ 0xC0 ∧ q.2.2.1 ≠ 0xDB ∧ q.2.2.2 ≠ 0xDB ∧
      q.2.2.1 ≠ q.2.1 := by decide

theorem witness_NothingBeforeAMarkerInfluencesWhatFollows :
    up.rxLen ≤ up.cfg.rxCap ∧
    up.cfg.rxCap = ({ holding [1, 2] with rxEsc := true } : State).cfg.rxCap ∧ up.rxb.wf = true ∧
    ({ holding [1, 2] with rxEsc := true } : State).rxb.wf = true ∧
    feed 0xC0 up = .next { up with resp := .fed none } ∧
    feed 0xC0 { holding [1, 2] with rxEsc := true } =
      .next { holding [1, 2] with rxLen := 0, resp := .fed none } :=
  ⟨by decide, rfl, by decide, by decide, rfl, rfl⟩

/-- The decoder at byte `cur` of a buffer. -/
def decAt (id : Byte) (buf : List Byte) (cur : Nat) : DecWork :=
  { buf := buf, id := id, cur := cur, di := 0, fields := [] }

/-- Vectors D7, D9, D10, D11; D2 and D13 with a stored length; D28 and the empty body of id 04 without. -/
theorem witness_CommandDecodeTestsInOrder :
    ([7, 1] : List Byte).length < 3 ∧
    cmdEntry State.reset.cfg 0x55 = .unregistered ∧ cmdEntry State.reset.cfg 0x30 = .noFields ∧
    cmdEntry State.reset.cfg 0x04 = .fields [0x31] ∧
    ((0x0A : Byte).toNat + 256 * (0 : Byte).toNat ≠ ([4, 1, 0, 0x0A, 0, 0x5A] : List Byte).length) ∧
    ((0x06 : Byte).toNat + 256 * (0 : Byte).toNat = ([4, 1, 0, 6, 0, 0x5A] : List Byte).length) ∧
    decWalk t0 [0x31] (decAt 4 [4, 1, 0, 6, 0, 0x5A] 5) =
      .ok { decAt 4 [4, 1, 0, 6, 0, 0x5A] 6 with di := 1, fields := [.scalar .w1 0x5A] } ∧
    ((0x05 : Byte).toNat + 256 * (0 : Byte).toNat = ([4, 1, 0, 5, 0] : List Byte).length) ∧
    decWalk t0 [0x31] (decAt 4 [4, 1, 0, 5, 0] 5) = .error .charFieldOverflow ∧
    ([0x5A] : List Byte).length < 2 ∧
    decWalk t0 [0x31] (decAt 4 [4, 1, 0, 0x5A] 3) =
      .ok { decAt 4 [4, 1, 0, 0x5A] 4 with di := 1, fields := [.scalar .w1 0x5A] } ∧
    ([] : List Byte).length < 2 ∧
    decWalk t0 [0x31] (decAt 4 [4, 1, 0] 3) = .error .charFieldOverflow :=
  ⟨by decide, by decide, by decide, by decide, by decide, by decide, rfl, by decide, rfl, by decide,
    rfl, by decide, rfl⟩

/-- The field ends with the buffer; it is one byte short, for id 04 and for the status report. -/
theorem witness_ScalarStepsReadLittleEndianValues :
    (decoding 4 [1, 2, 3, 4, 5, 6, 7, 8] 0).decW.cur + Width.w8.bytes ≤
      (decoding 4 [1, 2, 3, 4, 5, 6, 7, 8] 0).decW.buf.length ∧
    ((decoding 4 [1, 2, 3] 0).decW.buf.length < (decoding 4 [1, 2, 3] 0).decW.cur + Width.w4.bytes ∧
      (decoding 4 [1, 2, 3] 0).decW.id ≠ (decoding 4 [1, 2, 3] 0).cfg.idStatusReport) ∧
    ((decoding 7 [1] 0).decW.buf.length < (decoding 7 [1] 0).decW.cur + Width.w2.bytes ∧
      (decoding 7 [1] 0).decW.id = (decoding 7 [1] 0).cfg.idStatusReport) := by decide

/-- A terminator at the cursor, one at the end, and none. -/
theorem witness_StringStepStopsAtTheFirstZero :
    (((decoding 0x20 [0x00] 0).decW.cur ≤ 0 ∧ (decoding 0x20 [0x00] 0).decW.buf[0]? = some 0x00) ∧
      ∀ i : Nat, (decoding 0x20 [0x00] 0).decW.cur ≤ i → i < 0 →
        (decoding 0x20 [0x00] 0).decW.buf[i]? ≠ some 0x00) ∧
    (((decoding 0x20 [1, 0x00] 0).decW.cur ≤ 1 ∧
        (decoding 0x20 [1, 0x00] 0).decW.buf[1]? = some 0x00) ∧
      ∀ i : Nat, (decoding 0x20 [1, 0x00] 0).decW.cur ≤ i → i < 1 →
        (decoding 0x20 [1, 0x00] 0).decW.buf[i]? ≠ some 0x00) ∧
    (∀ i : Nat, (decoding 0x20 [] 0).decW.cur ≤ i → (decoding 0x20 [] 0).decW.buf[i]? ≠ some 0x00) := by
  refine ⟨⟨by decide, by intro i _ h; omega⟩, ⟨by decide, ?_⟩, by intro i _; simp [decoding]⟩
  intro i _ h
  obtain rfl : i = 0 := by omega
  decide

/-- Two elements that end with the buffer; no count; one byte short. -/
theorem witness_RepeatedStepsReadACountAndTheElements :
    ((decoding 0x20 [2, 2, 1, 0xDB, 0xC0] 0).decW.buf[0]? = some 2 ∧
      0 + 1 + (2 : Byte).toNat * Width.w2.bytes ≤
        (decoding 0x20 [2, 2, 1, 0xDB, 0xC0] 0).decW.buf.length) ∧
    (decoding 0x20 [] 0).decW.buf[0]? = none ∧
    ((decoding 0x20 [2, 2, 1, 0xDB] 0).decW.buf[0]? = some 2 ∧
      (decoding 0x20 [2, 2, 1, 0xDB] 0).decW.buf.length < 0 + 1 + (2 : Byte).toNat * Width.w2.bytes) := by
  decide

/-- One byte left; vector D18; 33 bytes present; 32 bytes present. -/
theorem witness_RawBufferStepTestsInOrder :
    (decoding 0x12 [1] 0).decW.buf.length < (decoding 0x12 [1] 0).decW.cur + 2 ∧
    (decoding 0x12 [0x21, 0] 0).decW.buf.length <
      (decoding 0x12 [0x21, 0] 0).decW.cur + 2 + ((0x21 : Byte).toNat + 256 * (0 : Byte).toNat) ∧
    (0 + 2 + ((0x21 : Byte).toNat + 256 * (0 : Byte).toNat) ≤
        (decoding 0x12 (0x21 :: 0 :: List.replicate 33 0) 0).decW.buf.length ∧
      State.reset.cfg.maxPayload < (0x21 : Byte).toNat + 256 * (0 : Byte).toNat) ∧
    (0 + 2 + ((0x20 : Byte).toNat + 256 * (0 : Byte).toNat) ≤
        (decoding 0x12 (0x20 :: 0 :: List.replicate 32 0) 0).decW.buf.length ∧
      (0x20 : Byte).toNat + 256 * (0 : Byte).toNat ≤ State.reset.cfg.maxPayload) := by decide

/-- Vectors D29 and D28: with and without a stored length. -/
theorem witness_DecodedFieldsAreTheBytesRead :
    ccDecode t0 [4, 1, 0, 7, 0, 0x5A, 0xEE] = .ok (cmd04 1 0x5A) ∧
    ccDecode t0 [4, 1, 0, 0x5A] = .ok (cmd04 1 0x5A) ∧
    (cmd04 1 0x5A).id ≠ t0.idStatusReport ∧ 5 ≤ ([4, 1, 0, 7, 0, 0x5A, 0xEE] : List Byte).length ∧
    ([4, 1, 0, 0x5A] : List Byte).length < 5 :=
  ⟨rfl, rfl, by decide, by decide, by decide⟩

/-- Exactly enough room; one byte too little; another type. -/
theorem witness_ScalarStepsWriteLittleEndianBytes :
    (encoding [4, 1, 0, 0, 0] 7).encW.out.length + Width.w2.bytes ≤
      (encoding [4, 1, 0, 0, 0] 7).encW.maxLen ∧
    (encoding [4, 1, 0, 0, 0] 6).encW.maxLen <
      (encoding [4, 1, 0, 0, 0] 6).encW.out.length + Width.w2.bytes ∧
    (∀ x : BitVec Width.w1.bits, FieldVal.cstr [] ≠ .scalar .w1 x) :=
  ⟨by decide, by decide, by intro x h; cases h⟩

/-- Room, no room and another type for each; a raw buffer of `MAX_PAYLOAD` bytes and one more. -/
theorem witness_StringAndRawStepsWriteTheirImage :
    (encoding [] 3).encW.out.length + ([0x68, 0x69] : List Byte).length + 1 ≤
      (encoding [] 3).encW.maxLen ∧
    (encoding [] 2).encW.maxLen <
      (encoding [] 2).encW.out.length + ([0x68, 0x69] : List Byte).length + 1 ∧
    (∀ bs : List Byte, FieldVal.raw [] ≠ .cstr bs) ∧
    ((List.replicate 32 (0 : Byte)).length ≤ (encoding [] 34).cfg.maxPayload ∧
      (encoding [] 34).encW.out.length + 2 + (List.replicate 32 (0 : Byte)).length ≤
        (encoding [] 34).encW.maxLen) ∧
    (encoding [] 64).cfg.maxPayload < (List.replicate 33 (0 : Byte)).length ∧
    (encoding [] 1).encW.maxLen < (encoding [] 1).encW.out.length + 2 + ([] : List Byte).length ∧
    (∀ bs : List Byte, FieldVal.cstr [] ≠ .raw bs) :=
  ⟨by decide, by decide, (by intro b h; cases h), by decide, by decide, by decide,
    (by intro b h; cases h)⟩

/-- 255 elements with exactly enough room; 256 elements; one byte too little; another type. -/
theorem witness_RepeatedStepsWriteACountAndTheElements :
    ((List.replicate 255 (0 : BitVec Width.w1.bits)).length ≤ 255 ∧
      (encoding [] 256).encW.out.length + 1 +
        (List.replicate 255 (0 : BitVec Width.w1.bits)).length * Width.w1.bytes ≤
        (encoding [] 256).encW.maxLen) ∧
    255 < (List.replicate 256 (0 : BitVec Width.w1.bits)).length ∧
    (encoding [] 2).encW.maxLen < (encoding [] 2).encW.out.length + 1 +
      ([0x0102] : List (BitVec Width.w2.bits)).length * Width.w2.bytes ∧
    (∀ xs : List (BitVec Width.w1.bits), FieldVal.cstr [] ≠ .rep .w1 xs) := by
  refine ⟨by decide +kernel, by decide +kernel, by decide, ?_⟩
  intro x h
  cases h

/-- Vectors D22, D23 and G13. -/
theorem witness_UnknownCharactersFailWhenReached :
    fieldKind 0x78 = none ∧
    decWalk t0 [0x31] (decAt 0x31 [0x31, 0, 0, 7, 0, 1, 2] 5) =
      .ok { decAt 0x31 [0x31, 0, 0, 7, 0, 1, 2] 6 with di := 1, fields := [.scalar .w1 1] } ∧
    decWalk t0 [0x31] (decAt 0x31 [0x31, 0, 0, 5, 0] 5) = .error .charFieldOverflow ∧
    (0x31 : Byte) ≠ State.reset.cfg.idAck ∧ cmdEntry State.reset.cfg 0x31 = .fields [0x31, 0x78] ∧
    (0x78 : Byte) ∈ ([0x31, 0x78] : List Byte) :=
  ⟨by decide, rfl, rfl, by decide, by decide, by decide⟩

/-- Vectors G10, G1, G11, G7, G8 and G14. -/
theorem witness_CommandEncodeInClosedForm :
    (2 : BitVec 16).toNat < 3 ∧ (3 ≤ (3 : BitVec 16).toNat ∧ ack.id = State.reset.cfg.idAck) ∧
    ((0x55 : Byte) ≠ State.reset.cfg.idAck ∧
      ∀ desc : List Byte, cmdEntry State.reset.cfg 0x55 ≠ .fields desc) ∧
    ((cmd04 1 0x5A).id ≠ State.reset.cfg.idAck ∧
      cmdEntry State.reset.cfg (cmd04 1 0x5A).id = .fields [0x31] ∧
      List.Forall₂ (stepTakes State.reset.cfg) [0x31] (cmd04 1 0x5A).fields ∧
      encodedSize (cmd04 1 0x5A) ≤ (6 : BitVec 16).toNat) ∧
    ¬ (List.Forall₂ (stepTakes State.reset.cfg) [0x31] (cmd04 1 0x5A).fields ∧
      encodedSize (cmd04 1 0x5A) ≤ (5 : BitVec 16).toNat) ∧
    ¬ (List.Forall₂ (stepTakes State.reset.cfg) [0x31] { cmd04 1 0x5A with fields := [] }.fields ∧
      encodedSize { cmd04 1 0x5A with fields := [] } ≤ (64 : BitVec 16).toNat) := by
  refine ⟨by decide, by decide, ⟨by decide, ?_⟩, ⟨by decide, by decide, ?_, by decide⟩, ?_, ?_⟩
  · intro d h
    have e : cmdEntry State.reset.cfg 0x55 = .unregistered := by decide
    rw [e] at h
    cases h
  · exact .cons (show fieldKind 0x31 = some (.scalar .w1) by decide) .nil
  · rintro ⟨_, h⟩
    revert h
    decide
  · rintro ⟨h, _⟩
    cases h

/-- The command of vectors G3 to G5 with a raw buffer of `n` bytes. -/
def rawCmd (n : Nat) : Command :=
  { id := 0x12, seq := 5, status := 0,
    fields := [.scalar .w1 0xAB, .scalar .w2 0xBEEF, .raw (List.replicate n 1)] }

/-- `T0` with another acknowledgment id. -/
def ackIs (id : Byte) : Config := { t0 with idAck := id }

/-- Vector G4's buffer of `MAX_PAYLOAD` bytes; the four clauses of the acknowledgment. -/
theorem witness_CommandsRoundTripThroughTheCodec :
    (42 ≤ 65535 ∧ ccEncode t0 (rawCmd 32) 42 ≠ [] ∧ wellTyped t0 (rawCmd 32) = true ∧
      (rawCmd 32).id ≠ t0.idAck) ∧
    (ccEncode t0 ack 3 ≠ [] ∧ ack.id = t0.idAck ∧ cmdEntry t0 ack.id = .fields []) ∧
    (ccEncode (ackIs 0x04) (cmd04 0 0) 3 ≠ [] ∧ (cmd04 0 0).id = (ackIs 0x04).idAck ∧
      cmdEntry (ackIs 0x04) 0x04 = .fields (0x31 :: []) ∧ fieldKind 0x31 = some (.scalar .w1) ∧
      (ackIs 0x04).idAck ≠ (ackIs 0x04).idStatusReport) ∧
    (ccEncode (ackIs 0x07) { ack with id := 0x07 } 3 ≠ [] ∧
      cmdEntry (ackIs 0x07) 0x07 = .fields [0x31, 0x31, 0x32] ∧
      ([0x31, 0x31, 0x32] : List Byte).map fieldKind =
        [Width.w1, .w1, .w2].map (fun w => some (.scalar w)) ∧
      (ackIs 0x07).idAck = (ackIs 0x07).idStatusReport) ∧
    (ccEncode (ackIs 0x30) { ack with id := 0x30 } 3 ≠ [] ∧
      cmdEntry (ackIs 0x30) 0x30 = .noFields) := by decide

/-- The link is up and every slot holds an item. -/
def full : State := { up with cq := Vector.replicate 32 (item04 .waitSend 1 0 0) }

/-- Every slot but the last holds an item; the scan starts at slot 0. -/
def lastFree : State := { full with cq := full.cq.set 31 QueueItem.reset }

theorem full_nonFree : ∀ i : Fin 32, nonFree full i := by unfold nonFree; decide +kernel

theorem up_first : firstFrom up.wrPtr 0 (fun i => up.cq[i].state = .init) :=
  ⟨0, by decide, by decide, by decide, by intro k hk; omega⟩

theorem lastFree_first : firstFrom lastFree.wrPtr 31 (fun i => lastFree.cq[i].state = .init) :=
  ⟨31, by decide, by decide, by decide +kernel, by decide +kernel⟩

theorem seqGiven_nextSeq {s : State} {n : Byte} (h : nextSeq s = n) : seqGiven s n := by
  subst h
  rfl

theorem lastFree_seqGiven : seqGiven { lastFree with seqCtr := 0 } 2 :=
  seqGiven_nextSeq (by decide +kernel)

/-- A full queue; slot 0 and slot 31 first free; an unregistered id; one that encodes. -/
theorem witness_EnqueueCoreCreatesOneItem :
    (∀ i : Fin 32, nonFree full i) ∧
    firstFrom up.wrPtr 0 (fun i => up.cq[i].state = .init) ∧
    ccEncode up.cfg { cmd04 9 0 with id := 0x55, seq := 0 } up.cfg.txMax = [] ∧
    firstFrom lastFree.wrPtr 31 (fun i => lastFree.cq[i].state = .init) ∧
    ccEncode lastFree.cfg { cmd04 9 0 with seq := 0 } lastFree.cfg.txMax ≠ [] ∧ seqGiven lastFree 2 :=
  ⟨full_nonFree, up_first, by decide, lastFree_first, by decide, lastFree_seqGiven⟩

/-- Link down; a full queue; a command that does not encode; the last slot taken. -/
theorem witness_EnqueueTestsLinkThenSlotThenEncoding :
    State.reset.linkUp = false ∧ full.linkUp = true ∧ (∀ i : Fin 32, nonFree full i) ∧
    up.linkUp = true ∧ firstFrom up.wrPtr 0 (fun i => up.cq[i].state = .init) ∧
    ccEncode up.cfg { cmd04 9 0 with id := 0x55, seq := 0 } up.cfg.txMax = [] ∧
    lastFree.linkUp = true ∧ firstFrom lastFree.wrPtr 31 (fun i => lastFree.cq[i].state = .init) ∧
    ccEncode lastFree.cfg { cmd04 9 0 with seq := 0 } lastFree.cfg.txMax ≠ [] ∧ seqGiven lastFree 2 :=
  ⟨rfl, rfl, full_nonFree, rfl, up_first, by decide, rfl, lastFree_first, by decide,
    lastFree_seqGiven⟩

theorem witness_SequenceAllocationSkipsHeldNumbers :
    seqHeld full (full.seqCtr + 1) ∧ ∃ i : Fin 32, lastFree.cq[i].state = .init :=
  ⟨⟨0, full_nonFree 0, by decide +kernel⟩, 31, by decide +kernel⟩

theorem witness_BackpressureIsImmediate :
    full.linkUp = true ∧ (∀ i : Fin 32, nonFree full i) ∧
    ({ up with pqCnt := 16 } : State).linkUp = true ∧ ({ up with pqCnt := 16 } : State).pqCnt = 16 :=
  ⟨rfl, full_nonFree, rfl, rfl⟩

/-- The last free cell, behind the wrap; a full queue; the link down. -/
theorem witness_PendingPushAppendsTheIdentifier :
    (({ up with pqRd := 1, pqCnt := 15 } : State).linkUp = true ∧
      ({ up with pqRd := 1, pqCnt := 15 } : State).pqCnt < 16 ∧
      (0 : Fin 16).val = (({ up with pqRd := 1, pqCnt := 15 } : State).pqRd.val + 15) % 16 ∧
      (15 : Fin 16).val ≠ (({ up with pqRd := 1, pqCnt := 15 } : State).pqRd.val + 15) % 16) ∧
    (({ up with pqCnt := 16 } : State).linkUp = true ∧ ({ up with pqCnt := 16 } : State).pqCnt = 16) ∧
    State.reset.linkUp = false := by decide

/-- Due at the last moment of half the time range, too late by one, and not armed. -/
theorem witness_TickIsItsFourStepsInOrder :
    (up.timerArmed = true ∧ ((0x7FFFFFFF : Time) - up.timerDue).toNat < 2 ^ 31) ∧
    ¬ (up.timerArmed = true ∧ ((0x80000000 : Time) - up.timerDue).toNat < 2 ^ 31) ∧
    ¬ (State.reset.timerArmed = true ∧ ((0 : Time) - State.reset.timerDue).toNat < 2 ^ 31) := by
  decide

/-- Age 101 with one retry left and with none left; age 100. -/
theorem witness_SweepRetriesOrFreesWhatTimedOut :
    (agedOut 101 (withItem (item04 .waitConfirm 1 1 0)) 0 ∧
      (withItem (item04 .waitConfirm 1 1 0)).cq[(0 : Fin 32)].retries.toNat <
        (withItem (item04 .waitConfirm 1 1 0)).cfg.maxRetries) ∧
    (agedOut 101 (withItem (item04 .waitConfirm 1 2 0)) 0 ∧
      ¬ (withItem (item04 .waitConfirm 1 2 0)).cq[(0 : Fin 32)].retries.toNat <
        (withItem (item04 .waitConfirm 1 2 0)).cfg.maxRetries) ∧
    ¬ agedOut 100 (withItem (item04 .waitConfirm 1 1 0)) 0 := by
  unfold agedOut
  decide +kernel

/-- The link is up, the status bytes are as given and one request is pending. -/
def status (b0 : Byte) : State := { up with devStatus0 := b0, pqCnt := 1 }

/-- The keep-alive at its boundary; and, one time unit earlier, each branch below it. -/
theorem witness_GenerationTakesAtMostOneBranch :
    (keepaliveWanted 1000 up ∧ ¬ idHeld up up.cfg.keepalive.id) ∧
    ¬ (keepaliveWanted 999 up ∧ ¬ idHeld up up.cfg.keepalive.id) ∧
    (holdsOn (status 0x2E).cfg.confirmPending (status 0x2E).devStatus0 (status 0x2E).devStatus1 = true ∧
      ¬ idHeld (status 0x2E) (status 0x2E).cfg.fetchConfirm.id) ∧
    (¬ holdsOn (status 8).cfg.confirmPending (status 8).devStatus0 (status 8).devStatus1 = true ∧
      holdsOn (status 8).cfg.indicationPending (status 8).devStatus0 (status 8).devStatus1 = true ∧
      ¬ idHeld (status 8) (status 8).cfg.fetchInd.id) ∧
    (idHeld { withItem (item04 .waitSend 1 0 0) with devStatus0 := 4 } 0x04 ∧
      holdsOn t0.confirmPending 4 0 = true ∧ ¬ holdsOn t0.indicationPending 4 0 = true) ∧
    (¬ holdsOn t0.confirmPending 0 0 = true ∧ ¬ holdsOn t0.indicationPending 0 0 = true ∧
      ¬ holdsOn t0.joined 0 0 = true) ∧
    (holdsOn (status 0x22).cfg.joined (status 0x22).devStatus0 (status 0x22).devStatus1 = true ∧
      holdsOn (status 0x22).cfg.freeSlot (status 0x22).devStatus0 (status 0x22).devStatus1 = true ∧
      ¬ holdsOn (status 0x22).cfg.confirmPending (status 0x22).devStatus0 0 = true ∧
      ¬ holdsOn (status 0x22).cfg.indicationPending (status 0x22).devStatus0 0 = true ∧
      0 < (status 0x22).pqCnt ∧ (status 0x22).cq[(0 : Fin 32)].state = .init) := by
  unfold keepaliveWanted idHeld nonFree
  decide +kernel

/-- In the bulk branch: the answer is taken, and one that does not encode is not. -/
theorem witness_GenerationTakesAtMostOneBranch_bulk :
    (∃ (t : State) (j : Fin 32), enqCore (cmd04 0 0) (some (.bulk 0)) 5 (status 0x22) = (t, .ok j)) ∧
    (∃ (t : State) (e : HostError),
      enqCore { cmd04 0 0 with id := 0x55 } (some (.bulk 0)) 5 (status 0x22) = (t, .error e)) :=
  ⟨⟨_, 0, rfl⟩, ⟨_, .rejected, rfl⟩⟩

/-- The item behind `snd_ptr`; nothing to send; the window full; the Transport not ready. -/
theorem witness_SendHandsOverOneFrame :
    (firstFrom { withItem (item04 .waitSend 1 0 0) with sndPtr := 1 }.sndPtr 0
        (fun i => (withItem (item04 .waitSend 1 0 0)).cq[i].state = .waitSend) ∧
      inflight { withItem (item04 .waitSend 1 0 0) with sndPtr := 1 } < 2) ∧
    (∀ i : Fin 32, up.cq[i].state ≠ .waitSend) ∧
    ¬ inflight { up with cq := (up.cq.set 0 (item04 .waitConfirm 1 0 0)).set 1
                          (item04 .waitConfirm 2 0 0) } < 2 :=
  ⟨⟨⟨31, by decide, by decide, by decide, by decide +kernel⟩, by decide +kernel⟩, by decide +kernel,
    by decide +kernel⟩

/-- A confirmed item; a command without status bytes; one with new and one with the same bytes. -/
theorem witness_DispatchConfirmsUpdatesAndRoutes :
    confirmsSlot (cmd04 1 0x5A) (withItem (item04 .waitConfirm 1 0 0)) 0 ∧
    (∀ i : Fin 32, ¬ confirmsSlot (cmd04 1 0x5A) up i) ∧
    statusOf up.cfg (cmd04 1 0x5A) = none ∧
    statusOf up.cfg up.cfg.keepalive = some (up.devStatus0, up.devStatus1) ∧
    (statusOf (status 0x22).cfg (status 0x22).cfg.keepalive = some (0, 0) ∧
      ¬ ((0 : Byte) = (status 0x22).devStatus0 ∧ (0 : Byte) = (status 0x22).devStatus1)) := by
  unfold confirmsSlot
  decide +kernel

/-- Nothing delivered; an acknowledgment delivered and decoded; an empty payload delivered. -/
theorem witness_ReceivedBytesRunTheInboundChain :
    State.reset.linkUp = false ∧ (up.linkUp = true ∧ up.rxLen ≤ up.cfg.rxCap) ∧
    (feed 0x07 up = .next { up with rxb := [(0, 7)], rxLen := 1, resp := .fed none } ∧
      delivered { up with rxb := [(0, 7)], rxLen := 1, resp := .fed none } = none) ∧
    (feed 0xC0 { up with rxb := [(0, 1), (1, 9), (3, 0xF6), (4, 0xFF)], rxLen := 5 } =
        .next { up with rxb := [(0, 1), (1, 9), (3, 0xF6), (4, 0xFF)], rxLen := 0,
                        resp := .fed (some [1, 9, 0]) } ∧
      ccDecode up.cfg [1, 9, 0] = .ok ack) ∧
    (feed 0xC0 { up with rxLen := 2 } = .next { up with rxLen := 0, resp := .fed (some []) } ∧
      ccDecode up.cfg [] = .error .bufferTooSmall) :=
  ⟨rfl, ⟨rfl, by decide⟩, ⟨rfl, rfl⟩, ⟨rfl, rfl⟩, rfl, rfl⟩

/-- A command whose frame fills the buffer: 62 encoded bytes and the trailer. -/
theorem witness_ReceiveChainDeliversAWholeFrame :
    let cmd : Command := rawCmd 52
    let s : State := { up with cfg := { t0 with maxPayload := 52 } }
    s.linkUp = true ∧ s.rxb.wf = true ∧ s.rxLen = 0 ∧ s.rxEsc = false ∧ s.rxDrop = false ∧
    62 ≤ 65535 ∧ wellTyped s.cfg cmd = true ∧ cmd.id ≠ s.cfg.idAck ∧ ccEncode s.cfg cmd 62 ≠ [] ∧
    (ccEncode s.cfg cmd 62).length + 2 = s.cfg.rxCap := by decide +kernel

theorem witness_ConnectStartsASession : State.reset.linkUp = false ∧ up.linkUp = true := by decide

theorem witness_ResetLeavesTheValuesOfTheTable :
    ∃ t s : State, s.linkUp = true ∧ exec .sysReset s = .next t :=
  ⟨_, up, rfl, rfl⟩

/-- The bounds at their values: two in flight, 16 pending, a length of 65535. -/
theorem witness_ReadOutShowsTheTableOfRegisters :
    let s : State := { up with pqCnt := 16, rxLen := 65535
                               cq := (up.cq.set 0 (item04 .waitConfirm 1 0 0)).set 1
                                 (item04 .waitConfirm 2 0 0) }
    windowOk s ∧ inflight s = 2 ∧ pendingOk s ∧ s.rxLen ≤ 65535 := by
  unfold windowOk pendingOk
  decide +kernel

theorem witness_CodecOperationsOnHostArePure :
    Instr.fcEnc [7] ∈ [Instr.fcEnc [7], .ccEnc ack 3, .ccDec [7]] ∧ up.cfg = t0 := by decide

/-- A step of a connected machine with a byte waiting, in a state that meets each invariant. -/
theorem witness_ReceiverStaysInsideItsBuffer :
    (∀ t ∈ (waiting [.rx 0x07 5] up).inbox, t.external = true) ∧
    memoryOk (waiting [.rx 0x07 5] up) ∧ receiverOk (waiting [.rx 0x07 5] up) ∧
    step (waiting [.rx 0x07 5] up) = .next { up with rxb := [(0, 7)], rxLen := 1, resp := .none } :=
  ⟨by decide, ⟨by decide, by intro c h; cases h⟩, by unfold receiverOk; decide, rfl⟩

/-- The invariants of the queue, in a state with an item in flight. -/
theorem witness_queue_invariants :
    let s : State := waiting [.xpt 1 0 5] (withItem (item04 .waitConfirm 1 2 0))
    windowOk s ∧ seqUnique s ∧ pendingOk s ∧ quietWhileDown s ∧ armedWhileUp s ∧ retriesOk s ∧
    encodableOk s ∧ externalInbox s ∧ configOk s.cfg = true ∧ s.rxLen ≤ s.cfg.rxCap ∧
    step s = .next { s with inbox := [], resp := .none } := by
  refine ⟨by unfold windowOk; decide +kernel, ?_, by unfold pendingOk; decide, ?_, ?_,
    by unfold retriesOk nonFree; decide +kernel, by unfold encodableOk nonFree; decide +kernel, ?_,
    by decide, by decide, rfl⟩
  · unfold seqUnique nonFree
    decide +kernel
  · intro h
    cases h
  · intro _
    rfl
  · unfold externalInbox
    decide

/-- The same invariants of a machine that is down, where the clause on the idle link speaks. -/
theorem witness_NothingIsQueuedWhileTheLinkIsDown :
    quietWhileDown (waiting [.host 0x02 .zero 5] State.reset) ∧
    (waiting [.host 0x02 .zero 5] State.reset).linkUp = false ∧
    step (waiting [.host 0x02 .zero 5] State.reset) =
      .next { State.reset with resp := .err .disconnected } := by
  refine ⟨?_, rfl, rfl⟩
  unfold quietWhileDown
  decide +kernel

theorem witness_StreamsOnlyGrowByWholeFrames :
    step (waiting [.xpt 1 0 5] up) = .next { up with resp := .none } ∧
    ∀ (x : HostOperands) (now : Time) (rest : List Transfer),
      (waiting [.xpt 1 0 5] up).inbox ≠ .host 0x05 x now :: rest :=
  ⟨rfl, by intro x now rest h; cases h⟩

/-- A slot taken before and after an operation other than a tick. -/
theorem witness_ItemsMoveOnlyAlongTheStateMachine :
    exec (.evConn 5) full = .next { full with resp := .none } ∧
    (∀ (now : Time) (txOk : Bool) (answer : Option Command),
      Instr.evConn 5 ≠ .sqTick now txOk answer) ∧ nonFree full 0 :=
  ⟨rfl, (by intro a b c h; cases h), full_nonFree 0⟩

/-- An enqueue that is accepted, one that is turned away, a push and an operation of another kind. -/
theorem witness_AcceptedCommandsAndDonesBalancePerTarget :
    (∃ t : State, exec (.sqEnq (cmd04 0 0) 10 1) up = .next t ∧ t.resp = .okSlot 0) ∧
    (∃ t : State, exec (.sqEnq (cmd04 0 0) 10 1) State.reset = .next t ∧ t.resp = .err .disconnected) ∧
    (pendingOk { up with pqCnt := 15 } ∧
      ∃ t : State, exec (.pqPush 9) { up with pqCnt := 15 } = .next t ∧ t.resp = .ok) ∧
    (∃ t : State, exec (.pqPush 9) State.reset = .next t ∧ t.resp ≠ .ok) ∧
    (∃ t : State, exec .sqKill up = .next t) ∧ Instr.sqKill ≠ .sysReset :=
  ⟨⟨_, rfl, rfl⟩, ⟨_, rfl, rfl⟩, ⟨by unfold pendingOk; decide, _, rfl, rfl⟩, ⟨_, rfl, by decide⟩,
    ⟨_, rfl⟩, by decide⟩

/-- `T0` without room for the trailer; no transfer; a length just past the buffer. -/
theorem witness_StopsAreTheModelsOwn :
    configOk { t0 with rxCap := 1 } = false ∧ configOk State.reset.cfg = true ∧
    State.reset.inbox = [] ∧
    ({ up with rxLen := 65 } : State).cfg.rxCap < ({ up with rxLen := 65 } : State).rxLen ∧
    2 ≤ ({ up with rxLen := 65 } : State).rxLen ∧
    (({ up with cfg := { t0 with rxCap := 0 }, rxLen := 1 } : State).cfg.rxCap < 1 ∧ 1 < 2) := by decide

end Sys2Proof.Tests
end

section
/-! Proofs of the family 00_scope: what the receiver makes of a frame byte by byte, the round trip of the
Command Codec, and the model's own stops. -/

namespace Sys2Proof.Proofs

open Sys2Proof Sys2Proof.Machine Sys2Proof.Safety

/-! ### The end of a frame (R127) -/

theorem exec_feedEnd (s : State) : exec .feedEnd s = execFeedEnd s := rfl

/-- Fewer than two bytes hold no trailer: the marker only empties the buffer (R127). -/
theorem execFeedEnd_short {s : State} (h : s.rxLen < 2) :
    execFeedEnd s = fedNothing { s with rxLen := 0 } := by
  rw [execFeedEnd, if_neg (by omega)]

/-- A length past the buffer would read offsets that are no addresses (R61; log 23). -/
theorem execFeedEnd_beyond {s : State} (h2 : 2 ≤ s.rxLen) (hcap : s.cfg.rxCap < s.rxLen) :
    execFeedEnd s = .fault (.rxbOffset s.rxLen) := by
  rw [execFeedEnd, if_pos h2, if_neg (by omega)]

/-- A good checksum delivers the content (R127). -/
theorem execFeedEnd_good {s : State} (h2 : 2 ≤ s.rxLen) (hcap : s.rxLen ≤ s.cfg.rxCap)
    (hcrc : crc (frameContent s) = frameTrailer s) :
    execFeedEnd s = .next (respond (.fed (some (frameContent s))) { s with rxLen := 0 }) := by
  rw [execFeedEnd, if_pos h2, if_pos hcap, if_pos hcrc]

/-! ### The model's own stops -/

theorem step_illFormed {s : State} (h : configOk s.cfg = false) :
    step s = .refused .illFormedConfiguration := by
  rw [step, h]; rfl

theorem step_idle {s : State} (h : configOk s.cfg = true) (hin : s.inbox = []) : step s = .next s := by
  rw [step, if_pos h, hin]

/-- Settles O60: the test of the configuration comes first, the empty inbox next, and `FEED.END`
compares `rx_len` with 2 before it compares it with `RX_CAP`. -/
theorem stopsAreTheModelsOwn : Obligations.StopsAreTheModelsOwn := by
  unfold Obligations.StopsAreTheModelsOwn
  refine ⟨fun s h => step_illFormed h, fun s h hin => step_idle h hin, fun s hcap => ⟨?_, ?_⟩⟩
  · intro h2
    rw [exec_feedEnd, execFeedEnd_beyond h2 hcap]
  · intro h2
    rw [exec_feedEnd, execFeedEnd_short h2]
    rfl

/-! ### The wire frame (R87, R123) -/

/-- The encoder's loop keeps the running sum and the escaped bytes apart (R123). -/
theorem foldl_fcEncodeByte (p : List Byte) :
    ∀ (c : BitVec 16) (out : List Byte), p.foldl fcEncodeByte (c, out) =
      (p.foldl (fun sum b => sum + b.setWidth 16) c, out ++ p.flatMap escByte) := by
  induction p with
  | nil => intro c out; simp
  | cons b p ih => intro c out; simp [fcEncodeByte, ih, List.append_assoc]

/-- The trailer of a payload as the bytes of its checksum, low byte first (R64). -/
def trailer (p : List Byte) : List Byte := [lowByte (crc p), highByte (crc p)]

/-- A frame is the payload and its trailer, escaped byte by byte, between two markers (R87, R123). -/
theorem fcEncode_eq (p : List Byte) :
    fcEncode p = MARK :: ((p ++ trailer p).flatMap escByte ++ [MARK]) := by
  unfold fcEncode
  rw [foldl_fcEncodeByte]
  simp [trailer, crc, neg16, sum16]

/-- The two bytes of a 16-bit value give it back (R64). -/
theorem word16_bytes (c : BitVec 16) : word16 (highByte c) (lowByte c) = c := by
  apply BitVec.eq_of_toNat_eq
  have := c.isLt
  simp only [word16, highByte, lowByte, BitVec.toNat_ofNat, BitVec.toNat_setWidth,
    BitVec.toNat_ushiftRight, Nat.shiftRight_eq_div_pow]
  omega

/-! ### Which step a byte selects (R93) -/

theorem selectFeed_mark : selectFeed (feedWord false false MARK) = .endFrame := by decide

theorem selectFeed_esc : selectFeed (feedWord false false ESCB) = .esc false := by decide

theorem selectFeed_tmark : selectFeed (feedWord false true T_MARK) = .tmark := by decide

theorem selectFeed_tesc : selectFeed (feedWord false true T_ESC) = .tesc := by decide

/-- Outside an escape every byte but the two special ones is data (R93, last row). -/
theorem selectFeed_data : ∀ b : Byte, b ≠ MARK → b ≠ ESCB →
    selectFeed (feedWord false false b) = .data b := by decide +kernel

section FeedEquations

variable {s : State}

/-- The receiver performs the step its selecting word selects (R125). -/
theorem feed_of_select {b : Byte} {drop esc : Bool} {sel : FeedSel} (hdrop : s.rxDrop = drop)
    (hesc : s.rxEsc = esc) (hsel : selectFeed (feedWord drop esc b) = sel) :
    feed b s = feedStep sel s := by
  rw [feed, feedKey, hdrop, hesc, hsel]

theorem feed_mark (hdrop : s.rxDrop = false) (hesc : s.rxEsc = false) :
    feed MARK s = execFeedEnd s := feed_of_select hdrop hesc selectFeed_mark

theorem feed_esc (hdrop : s.rxDrop = false) (hesc : s.rxEsc = false) :
    feed ESCB s = fedNothing { s with rxEsc := true } := feed_of_select hdrop hesc selectFeed_esc

theorem feed_data {b : Byte} (hdrop : s.rxDrop = false) (hesc : s.rxEsc = false)
    (hm : b ≠ MARK) (he : b ≠ ESCB) : feed b s = fedNothing (rxAppend b s) :=
  feed_of_select hdrop hesc (selectFeed_data b hm he)

theorem feed_tmark (hdrop : s.rxDrop = false) (hesc : s.rxEsc = true) :
    feed T_MARK s = fedNothing (rxAppend MARK { s with rxEsc := false }) :=
  feed_of_select hdrop hesc selectFeed_tmark

theorem feed_tesc (hdrop : s.rxDrop = false) (hesc : s.rxEsc = true) :
    feed T_ESC s = fedNothing (rxAppend ESCB { s with rxEsc := false }) :=
  feed_of_select hdrop hesc selectFeed_tesc

end FeedEquations

/-! ### `RX.BYTE` over a list of bytes (R230) -/

theorem exec_rxByte (b : Byte) (now : Time) (s : State) :
    exec (.rxByte b now) s = execRxByte b now s := rfl

/-- A byte whose receiver step delivers nothing leaves what that step leaves (R230). -/
theorem exec_rxByte_of_fedNothing {s s1 : State} {b : Byte} (now : Time) (hup : s.linkUp = true)
    (h : feed b s = fedNothing s1) : exec (.rxByte b now) s = .next (respond .none s1) := by
  rw [exec_rxByte, execRxByte, if_pos hup, h]; rfl

/-- A byte that delivers a decodable payload dispatches its command (R230). -/
theorem exec_rxByte_of_delivered {s s1 : State} {b : Byte} {p : List Byte} {cmd : Command}
    (now : Time) (hup : s.linkUp = true) (h : feed b s = .next (respond (.fed (some p)) s1))
    (hdec : ccDecode s1.cfg p = .ok cmd) :
    exec (.rxByte b now) s =
      .next (respond .none (dispatch cmd now (respond (.fed (some p)) s1))) := by
  have hrec : receive p now (respond (.fed (some p)) s1) =
      dispatch cmd now (respond (.fed (some p)) s1) := by
    rw [receive, respond_cfg, hdec]
  rw [← hrec, exec_rxByte, execRxByte, if_pos hup, h]; rfl

/-- `RX.BYTE` over the bytes in order leads from the first state to the last by next states
throughout. -/
inductive Receives (now : Time) : State → List Byte → State → Prop where
  | nil (s : State) : Receives now s [] s
  | cons {s s1 t : State} {b : Byte} {bs : List Byte} (h : exec (.rxByte b now) s = .next s1)
      (hs : Receives now s1 bs t) : Receives now s (b :: bs) t

namespace Receives

variable {now : Time} {s t u : State} {as bs : List Byte}

theorem single {b : Byte} (h : exec (.rxByte b now) s = .next t) : Receives now s [b] t :=
  .cons h (.nil t)

theorem append (h : Receives now s as t) (h' : Receives now t bs u) :
    Receives now s (as ++ bs) u := by
  induction h with
  | nil s => exact h'
  | cons h _ ih => exact .cons h (ih h')

/-- Any fold that follows `RX.BYTE` from next state to next state ends where the run ends. -/
theorem foldl_eq {f : Option State → Byte → Option State}
    (hf : ∀ (b : Byte) (x y : State), exec (.rxByte b now) x = .next y → f (some x) b = some y)
    (h : Receives now s bs t) : bs.foldl f (some s) = some t := by
  induction h with
  | nil s => rfl
  | cons h _ ih => rw [List.foldl_cons, hf _ _ _ h, ih]

end Receives

/-! ### The receiver inside a frame -/

/-- Starting from `s`, the receiver has taken the unescaped bytes `q` of a frame, and nothing but the
buffer, its length and the result has changed. -/
structure Accumulated (s : State) (q : List Byte) (t : State) : Prop where
  frame : t = { s with rxb := t.rxb, rxLen := q.length, resp := .none }
  wf : t.rxb.wf = true
  content : memReadRange t.rxb 0 q.length = q

namespace Accumulated

variable {s t : State} {q : List Byte} {now : Time}

theorem cfg_eq (h : Accumulated s q t) : t.cfg = s.cfg := by rw [h.frame]

theorem linkUp_eq (h : Accumulated s q t) : t.linkUp = s.linkUp := by rw [h.frame]

theorem rxEsc_eq (h : Accumulated s q t) : t.rxEsc = s.rxEsc := by rw [h.frame]

theorem rxDrop_eq (h : Accumulated s q t) : t.rxDrop = s.rxDrop := by rw [h.frame]

theorem rxLen_eq (h : Accumulated s q t) : t.rxLen = q.length := by rw [h.frame]

/-- A stored byte joins those already taken (R122). -/
theorem store (h : Accumulated s q t) (hroom : q.length < s.cfg.rxCap) (v : Byte) :
    Accumulated s (q ++ [v]) (respond .none (rxAppend v t)) := by
  have hlen := h.rxLen_eq
  have hcfg := h.cfg_eq
  obtain ⟨hframe, hwf, hcontent⟩ := h
  rw [rxAppend_room t v (by rw [hlen, hcfg]; exact hroom), hlen]
  refine ⟨?_, memWrite_wf hwf _ _, ?_⟩
  · rw [hframe]
    simp [respond]
  · have hkeep : memReadRange (memWrite t.rxb q.length v) 0 q.length = memReadRange t.rxb 0 q.length :=
      memReadRange_congr _ _ _ _ (fun k _ hk => memRead_memWrite_other _ _ _ (by omega) _)
    simp only [respond_rxb, List.length_append, List.length_singleton, memReadRange_snoc, Nat.zero_add,
      memRead_memWrite_same hwf, hkeep, hcontent]

variable (hup : s.linkUp = true) (hesc : s.rxEsc = false) (hdrop : s.rxDrop = false)
include hup hesc hdrop

/-- An escape byte and a substitute standing for `v` store `v` (R128 to R130). -/
theorem receives_escaped {sub v : Byte}
    (hsub : ∀ x : State, x.rxDrop = false → x.rxEsc = true →
      feed sub x = fedNothing (rxAppend v { x with rxEsc := false }))
    (h : Accumulated s q t) :
    Receives now t [ESCB, sub] (respond .none (rxAppend v t)) := by
  have hfirst := exec_rxByte_of_fedNothing now (h.linkUp_eq.trans hup)
    (feed_esc (h.rxDrop_eq.trans hdrop) (h.rxEsc_eq.trans hesc))
  have hsecond := exec_rxByte_of_fedNothing (s := respond .none { t with rxEsc := true }) now
    (h.linkUp_eq.trans hup) (hsub _ (h.rxDrop_eq.trans hdrop) rfl)
  have hback : ({ respond .none { t with rxEsc := true } with rxEsc := false } : State) = t := by
    rw [h.frame]
    simp [respond, hesc]
  rw [hback] at hsecond
  exact .cons hfirst (.single hsecond)

/-- The wire form of `v`, escaped or not, stores `v` (R88). -/
theorem receives_escByte (h : Accumulated s q t) (v : Byte) :
    Receives now t (escByte v) (respond .none (rxAppend v t)) := by
  unfold escByte
  split
  · next hm =>
    subst hm
    exact h.receives_escaped hup hesc hdrop (fun _ => feed_tmark)
  · next hm =>
    split
    · next he =>
      subst he
      exact h.receives_escaped hup hesc hdrop (fun _ => feed_tesc)
    · next he =>
      exact .single (exec_rxByte_of_fedNothing now (h.linkUp_eq.trans hup)
        (feed_data (h.rxDrop_eq.trans hdrop) (h.rxEsc_eq.trans hesc) hm he))

/-- The wire form of bytes that fit the buffer accumulates those bytes. -/
theorem receives_flatMap (bs : List Byte) :
    ∀ {q : List Byte} {t : State}, Accumulated s q t → q.length + bs.length ≤ s.cfg.rxCap →
      ∃ u, Receives now t (bs.flatMap escByte) u ∧ Accumulated s (q ++ bs) u := by
  induction bs with
  | nil => intro q t h _; exact ⟨t, .nil t, by simpa using h⟩
  | cons b bs ih =>
    intro q t h hroom
    rw [List.length_cons] at hroom
    have hb := h.receives_escByte (now := now) hup hesc hdrop b
    obtain ⟨u, hrun, hu⟩ := ih (h.store (by omega) b) (by simp; omega)
    exact ⟨u, hb.append hrun, by simpa using hu⟩

end Accumulated

/-- The opening marker, met with an empty buffer, changes nothing but the result (R135). -/
theorem receives_openingMark {s : State} (now : Time) (hup : s.linkUp = true)
    (hwf : s.rxb.wf = true) (hlen : s.rxLen = 0) (hesc : s.rxEsc = false) (hdrop : s.rxDrop = false) :
    ∃ t, Receives now s [MARK] t ∧ Accumulated s [] t := by
  have hfeed : feed MARK s = fedNothing { s with rxLen := 0 } := by
    rw [feed_mark hdrop hesc, execFeedEnd_short (by omega)]
  exact ⟨_, .single (exec_rxByte_of_fedNothing now hup hfeed), rfl, hwf, rfl⟩

/-- The closing marker delivers the payload whose trailer the buffer ends with (R127). -/
theorem Accumulated.feed_closingMark {s t : State} {p : List Byte} (hesc : s.rxEsc = false)
    (hdrop : s.rxDrop = false) (hcap : p.length + 2 ≤ s.cfg.rxCap)
    (h : Accumulated s (p ++ trailer p) t) :
    feed MARK t = .next (respond (.fed (some p)) { t with rxLen := 0 }) := by
  have hlen : t.rxLen = p.length + 2 := by simp [h.rxLen_eq, trailer]
  have hbytes : memReadRange t.rxb 0 p.length ++
      [memRead t.rxb p.length, memRead t.rxb (p.length + 1)] = p ++ trailer p := by
    have := h.content
    rw [← h.rxLen_eq, hlen, memReadRange_snoc, memReadRange_snoc] at this
    simpa using this
  obtain ⟨hp, htr⟩ := List.append_inj hbytes (memReadRange_length _ _ _)
  have hcontent : frameContent t = p := by rw [frameContent, hlen]; exact hp
  have htrailer : frameTrailer t = crc p := by
    simp only [trailer, List.cons.injEq, and_true] at htr
    obtain ⟨hlow, hhigh⟩ := htr
    rw [frameTrailer, hlen]
    exact (congrArg₂ word16 hhigh hlow).trans (word16_bytes _)
  rw [feed_mark (h.rxDrop_eq.trans hdrop) (h.rxEsc_eq.trans hesc),
    execFeedEnd_good (by omega) (by rw [hlen, h.cfg_eq]; exact hcap) (by rw [hcontent, htrailer]),
    hcontent]

/-! ### Dispatch reads no receiver state (R211) -/

/-- `s` with other contents of `RXB` and another result. -/
def withRxb (m : Memory) (r : Resp) (s : State) : State := { s with rxb := m, resp := r }

@[simp] theorem withRxb_cfg (m : Memory) (r : Resp) (s : State) : (withRxb m r s).cfg = s.cfg := rfl
@[simp] theorem withRxb_devStatus0 (m : Memory) (r : Resp) (s : State) :
    (withRxb m r s).devStatus0 = s.devStatus0 := rfl
@[simp] theorem withRxb_devStatus1 (m : Memory) (r : Resp) (s : State) :
    (withRxb m r s).devStatus1 = s.devStatus1 := rfl

theorem confirmMatch_withRxb (cmd : Command) (now : Time) (m : Memory) (r : Resp) (s : State) :
    confirmMatch cmd now (withRxb m r s) = withRxb m r (confirmMatch cmd now s) := by
  have hfind : slots.find? (confirms cmd (withRxb m r s)) = slots.find? (confirms cmd s) := rfl
  unfold confirmMatch
  rw [hfind]
  split
  · rfl
  · rw [emitDone_eq, emitDone_eq]; rfl

theorem updateStatus_withRxb (cmd : Command) (m : Memory) (r : Resp) (s : State) :
    updateStatus cmd (withRxb m r s) = withRxb m r (updateStatus cmd s) := by
  unfold updateStatus
  rw [withRxb_cfg, withRxb_devStatus0, withRxb_devStatus1]
  split
  · rfl
  · split <;> rfl

theorem dispatch_withRxb (cmd : Command) (now : Time) (m : Memory) (r : Resp) (s : State) :
    dispatch cmd now (withRxb m r s) = withRxb m r (dispatch cmd now s) := by
  rw [dispatch, confirmMatch_withRxb, updateStatus_withRxb]; rfl

/-! ### Encoding a command, read backwards (R160) -/

theorem put_some {add : List Byte} {k k1 : EncWork} (h : put add k = some k1) :
    k1.out = k.out ++ add ∧ k1.maxLen = k.maxLen ∧ k1.out.length ≤ k1.maxLen := by
  unfold put at h
  split at h
  · cases h
  · cases h
    exact ⟨rfl, rfl, by simp; omega⟩

theorem encScalar_some {w : Width} {v : FieldVal} {k k1 : EncWork}
    (h : encScalar w v k = some k1) : put (fieldBytes v) k = some k1 := by
  cases v with
  | scalar w' x => exact (Option.ite_none_right_eq_some.1 h).2
  | cstr _ | rep _ _ | raw _ => cases h

theorem encString_some {v : FieldVal} {k k1 : EncWork}
    (h : encString v k = some k1) : put (fieldBytes v) k = some k1 := by
  cases v with
  | cstr bs => exact h
  | scalar _ _ | rep _ _ | raw _ => cases h

theorem encRep_some {w : Width} {v : FieldVal} {k k1 : EncWork}
    (h : encRep w v k = some k1) : put (fieldBytes v) k = some k1 := by
  cases v with
  | rep w' xs =>
    exact (Option.ite_none_left_eq_some.1 (Option.ite_none_right_eq_some.1 h).2).2
  | scalar _ _ | cstr _ | raw _ => cases h

theorem encRawBuffer_some {c : Config} {v : FieldVal} {k k1 : EncWork}
    (h : encRawBuffer c v k = some k1) : put (fieldBytes v) k = some k1 := by
  cases v with
  | raw bs => exact (Option.ite_none_left_eq_some.1 h).2
  | scalar _ _ | cstr _ | rep _ _ => cases h

/-- A field step that does not fail puts the bytes of its value, and nothing else (R161 to R171). -/
theorem encStep_some {c : Config} {ch : Byte} {v : FieldVal} {k k1 : EncWork}
    (h : encStep c ch v k = some k1) : put (fieldBytes v) k = some k1 := by
  unfold encStep at h
  split at h
  · exact encScalar_some h
  · exact encString_some h
  · exact encRep_some h
  · exact encRawBuffer_some h
  · cases h

/-- A walk that does not fail puts the bytes of every value in order, within `max_len` (R160). -/
theorem encWalk_some {c : Config} : ∀ {desc : List Byte} {vs : List FieldVal} {k k1 : EncWork},
    encWalk c desc vs k = some k1 → k.out.length ≤ k.maxLen →
      k1.out = k.out ++ vs.flatMap fieldBytes ∧ k1.maxLen = k.maxLen ∧ k1.out.length ≤ k1.maxLen
  | [], [], k, k1, h, hlen => by
    cases h
    exact ⟨by simp, rfl, hlen⟩
  | ch :: desc, v :: vs, k, k1, h, _ => by
    unfold encWalk at h
    split at h
    · next k2 hstep =>
      obtain ⟨hout, hmax, hlen⟩ := put_some (encStep_some hstep)
      obtain ⟨hout', hmax', hlen'⟩ := encWalk_some h hlen
      exact ⟨by simp [hout', hout], hmax'.trans hmax, hlen'⟩
    · cases h

/-- The bytes of a command other than the acknowledgment: header, total length, fields (R160, R91). -/
def commandBytes (cmd : Command) : List Byte :=
  [cmd.id, cmd.seq, cmd.status] ++
    leBytes 2 (5 + (cmd.fields.flatMap fieldBytes).length) ++ cmd.fields.flatMap fieldBytes

theorem commandBytes_length (cmd : Command) :
    (commandBytes cmd).length = 5 + (cmd.fields.flatMap fieldBytes).length := by
  simp only [commandBytes, List.length_append, leBytes_length, List.length_cons, List.length_nil]

/-- What `CC.ENC` starts its walk with (R160, step 5). -/
def encStart (cmd : Command) (m : Nat) : EncWork :=
  { out := [cmd.id, cmd.seq, cmd.status, 0x00, 0x00], maxLen := m, di := 0 }

/-- Everything `CC.ENC` can do with a command other than the acknowledgment: fail, or walk its
descriptor to the end and write the length (R160). -/
theorem ccEncode_cases {c : Config} {cmd : Command} (m : Nat) (hack : cmd.id ≠ c.idAck) :
    ccEncode c cmd m = [] ∨
    ∃ desc k, 5 ≤ m ∧ encWalk c desc cmd.fields (encStart cmd m) = some k ∧
      ccEncode c cmd m = backPatch k.out := by
  rw [ccEncode, if_neg hack]
  split
  · exact .inl rfl
  · split
    · next desc _ =>
      split
      · exact .inl rfl
      · next h5 =>
        split
        · next k hwalk => exact .inr ⟨desc, k, by omega, hwalk, rfl⟩
        · exact .inl rfl
    · exact .inl rfl
    · exact .inl rfl

/-- `CC.ENC` of a command other than the acknowledgment, if it does not fail, gives the command's
bytes, at most `max_len` of them. -/
theorem ccEncode_of_ne_nil {c : Config} {cmd : Command} {m : Nat} (hack : cmd.id ≠ c.idAck)
    (h : ccEncode c cmd m ≠ []) :
    ccEncode c cmd m = commandBytes cmd ∧ (commandBytes cmd).length ≤ m := by
  obtain hfail | ⟨desc, k, h5, hwalk, hk⟩ := ccEncode_cases m hack
  · exact absurd hfail h
  · obtain ⟨hout, hmax, hlen⟩ := encWalk_some hwalk h5
    rw [hout, hmax] at hlen
    refine ⟨?_, ?_⟩
    · rw [hk, hout, backPatch, List.length_append]; rfl
    · rw [List.length_append] at hlen
      exact (commandBytes_length cmd).trans_le hlen

/-! ### Reading back what was written (R143 to R153) -/

section Ahead

variable {buf a rest : List Byte} {off : Nat}

theorem slice_ahead (h : buf.drop off = a ++ rest) : slice buf off a.length = a := by
  rw [slice, h, List.take_left]

theorem drop_ahead (h : buf.drop off = a ++ rest) : buf.drop (off + a.length) = rest := by
  rw [← List.drop_drop, h, List.drop_left]

/-- Bytes that lie ahead of the cursor lie inside the buffer. -/
theorem length_ahead (h : buf.drop off = a ++ rest) (ha : a ≠ []) :
    off + a.length ≤ buf.length := by
  have hlen := congrArg List.length h
  have hpos := List.length_pos_iff.2 ha
  rw [List.length_drop, List.length_append] at hlen
  omega

end Ahead

/-- A scalar is the value of its bytes (R16). -/
theorem ofNat_unle_leBytes (w : Width) (v : BitVec w.bits) :
    BitVec.ofNat w.bits (unle (leBytes w.bytes v.toNat)) = v := by
  have hv : v.toNat < 256 ^ w.bytes := by
    have hbits : 256 ^ w.bytes = 2 ^ w.bits := (Nat.pow_mul 2 8 w.bytes).symm
    exact hbits ▸ v.isLt
  rw [unle_leBytes, Nat.mod_eq_of_lt hv, BitVec.ofNat_toNat, BitVec.setWidth_eq]

theorem bytes_pos (w : Width) : 0 < w.bytes := by cases w <;> decide

/-- The bytes of a list of scalars of one width, one after the other (R91). -/
def scalarsBytes (w : Width) (xs : List (BitVec w.bits)) : List Byte :=
  xs.flatMap (fun x => leBytes w.bytes x.toNat)

theorem scalarsBytes_length (w : Width) (xs : List (BitVec w.bits)) :
    (scalarsBytes w xs).length = xs.length * w.bytes := by
  induction xs with
  | nil => simp [scalarsBytes]
  | cons x xs ih =>
    have hcons : scalarsBytes w (x :: xs) = leBytes w.bytes x.toNat ++ scalarsBytes w xs := rfl
    rw [hcons, List.length_append, leBytes_length, ih, List.length_cons, Nat.succ_mul, Nat.add_comm]

theorem repElems_ahead (w : Width) {buf rest : List Byte} (xs : List (BitVec w.bits)) :
    ∀ {off : Nat}, buf.drop off = scalarsBytes w xs ++ rest →
      repElems w buf off xs.length = xs := by
  induction xs with
  | nil => intro off _; rfl
  | cons x xs ih =>
    intro off h
    have hx : buf.drop off = leBytes w.bytes x.toNat ++ (scalarsBytes w xs ++ rest) := by
      rw [h]; simp [scalarsBytes]
    have hslice := slice_ahead hx
    have hrest := drop_ahead hx
    rw [leBytes_length] at hslice hrest
    rw [List.length_cons, repElems, hslice, ofNat_unle_leBytes, ih hrest]

section Fields

variable {c : Config} {k : DecWork} {rest : List Byte}

theorem decScalar_ahead {w : Width} {v : BitVec w.bits}
    (h : k.buf.drop k.cur = fieldBytes (.scalar w v) ++ rest) :
    decScalar c w k = .ok (fieldDone (.scalar w v) (k.cur + (fieldBytes (.scalar w v)).length) k) := by
  have hlen : (fieldBytes (.scalar w v)).length = w.bytes := leBytes_length _ _
  have hne : fieldBytes (.scalar w v) ≠ [] :=
    List.ne_nil_of_length_pos (hlen ▸ bytes_pos w)
  have hin := length_ahead h hne
  have hslice := slice_ahead h
  rw [hlen] at hin hslice
  rw [decScalar, if_neg (by omega), hslice, hlen, fieldBytes, ofNat_unle_leBytes]

theorem decString_ahead {bs : List Byte} (hbs : bs.all (fun b => b != 0x00) = true)
    (h : k.buf.drop k.cur = fieldBytes (.cstr bs) ++ rest) :
    decString k = .ok (fieldDone (.cstr bs) (k.cur + (fieldBytes (.cstr bs)).length) k) := by
  have hstr : strBytes k = bs := by
    rw [strBytes, h, fieldBytes, List.append_assoc,
      List.takeWhile_append_of_pos (List.all_eq_true.1 hbs)]
    simp
  have hlen : (fieldBytes (.cstr bs)).length = bs.length + 1 := by simp [fieldBytes]
  have hin := length_ahead h (by simp [fieldBytes])
  rw [hlen] at hin
  rw [decString, hstr, if_neg (by omega), hlen, Nat.add_assoc]

theorem decRep_ahead {w : Width} {xs : List (BitVec w.bits)} (hxs : xs.length ≤ 255)
    (h : k.buf.drop k.cur = fieldBytes (.rep w xs) ++ rest) :
    decRep w k = .ok (fieldDone (.rep w xs) (k.cur + (fieldBytes (.rep w xs)).length) k) := by
  have hbytes : fieldBytes (.rep w xs) = [BitVec.ofNat 8 xs.length] ++ scalarsBytes w xs := rfl
  have hlen : (fieldBytes (.rep w xs)).length = 1 + xs.length * w.bytes := by
    rw [hbytes, List.length_append, scalarsBytes_length, List.length_singleton]
  have hin := length_ahead h (by simp [fieldBytes])
  rw [hlen] at hin
  have hcount : (BitVec.ofNat 8 xs.length).toNat = xs.length := by simp; omega
  have hfirst : k.buf[k.cur]? = some (BitVec.ofNat 8 xs.length) := by
    have := congrArg (fun l => l[0]?) h
    simpa [hbytes] using this
  have helems : repElems w k.buf (k.cur + 1) xs.length = xs := by
    refine repElems_ahead w xs (rest := rest) ?_
    rw [hbytes, List.append_assoc] at h
    exact drop_ahead h
  rw [decRep, hfirst]
  simp only [hcount, helems]
  rw [if_neg (by omega), hlen, Nat.add_assoc]

theorem decRawBuffer_ahead {bs : List Byte} (hmax : bs.length ≤ c.maxPayload)
    (hbuf : k.buf.length < 65536) (h : k.buf.drop k.cur = fieldBytes (.raw bs) ++ rest) :
    decRawBuffer c k = .ok (fieldDone (.raw bs) (k.cur + (fieldBytes (.raw bs)).length) k) := by
  have hlen : (fieldBytes (.raw bs)).length = 2 + bs.length := by simp [fieldBytes]
  have hin := length_ahead h (List.ne_nil_of_length_pos (by omega))
  rw [hlen] at hin
  rw [fieldBytes, List.append_assoc] at h
  have hcount : unle (slice k.buf k.cur 2) = bs.length := by
    have := slice_ahead h
    rw [leBytes_length] at this
    rw [this, unle_leBytes, Nat.mod_eq_of_lt (by omega)]
  have hbytes : slice k.buf (k.cur + 2) bs.length = bs := by
    have := drop_ahead h
    rw [leBytes_length] at this
    exact slice_ahead this
  rw [decRawBuffer, if_neg (by omega)]
  simp only [hcount, hbytes]
  rw [if_neg (by omega), if_neg (by omega), hlen, Nat.add_assoc]

/-- The step of a character reads back a value of its kind (R173 for one field). -/
theorem decStep_ahead {ch : Byte} {v : FieldVal} (hfit : fieldFits c ch v = true)
    (hbuf : k.buf.length < 65536) (h : k.buf.drop k.cur = fieldBytes v ++ rest) :
    decStep c ch k = .ok (fieldDone v (k.cur + (fieldBytes v).length) k) := by
  unfold fieldFits at hfit
  split at hfit
  · next w w' v hkind =>
    obtain rfl := beq_iff_eq.1 hfit
    rw [decStep, hkind]
    exact decScalar_ahead h
  · next bs hkind =>
    rw [decStep, hkind]
    exact decString_ahead hfit h
  · next w w' xs hkind =>
    obtain ⟨hw, hxs⟩ := Bool.and_eq_true_iff.1 hfit
    obtain rfl := beq_iff_eq.1 hw
    rw [decStep, hkind]
    exact decRep_ahead (of_decide_eq_true hxs) h
  · next bs hkind =>
    rw [decStep, hkind]
    exact decRawBuffer_ahead (of_decide_eq_true hfit) hbuf h
  · cases hfit

end Fields

/-- The walk reads back well-typed values (R173). -/
theorem decWalk_ahead {c : Config} : ∀ {desc : List Byte} {vs : List FieldVal} {k : DecWork},
    fieldsFit c desc vs = true → k.buf.length < 65536 →
    k.buf.drop k.cur = vs.flatMap fieldBytes →
      ∃ k1, decWalk c desc k = .ok k1 ∧ k1.fields = k.fields ++ vs
  | [], [], k, _, _, _ => ⟨k, rfl, by simp⟩
  | ch :: desc, v :: vs, k, hfit, hbuf, h => by
    obtain ⟨hv, hvs⟩ := Bool.and_eq_true_iff.1 hfit
    rw [List.flatMap_cons] at h
    have hstep := decStep_ahead hv hbuf h
    obtain ⟨k1, hwalk, hfields⟩ :=
      decWalk_ahead (k := fieldDone v (k.cur + (fieldBytes v).length) k) hvs hbuf (drop_ahead h)
    refine ⟨k1, ?_, ?_⟩
    · rw [decWalk, hstep]
      exact hwalk
    · rw [hfields]
      simp [fieldDone]

/-- Decoding undoes encoding for a well-typed command other than the acknowledgment (R173). -/
theorem ccDecode_commandBytes {c : Config} {cmd : Command} (htyped : wellTyped c cmd = true)
    (hlen : (commandBytes cmd).length < 65536) : ccDecode c (commandBytes cmd) = .ok cmd := by
  unfold wellTyped at htyped
  split at htyped
  · next desc hdesc =>
    obtain ⟨k, hwalk, hfields⟩ := decWalk_ahead (c := c)
      (k := { buf := commandBytes cmd, id := cmd.id, cur := 5, di := 0, fields := [] })
      htyped hlen rfl
    have hstored : unle (slice (commandBytes cmd) 3 2) = (commandBytes cmd).length := by
      rw [commandBytes_length] at hlen ⊢
      have hdrop : (commandBytes cmd).drop 3 =
          leBytes 2 (5 + (cmd.fields.flatMap fieldBytes).length) ++
            cmd.fields.flatMap fieldBytes := rfl
      have hslice := slice_ahead hdrop
      rw [leBytes_length] at hslice
      rw [hslice, unle_leBytes, Nat.mod_eq_of_lt (by omega)]
    have hlong : 5 ≤ (commandBytes cmd).length := by rw [commandBytes_length]; omega
    have hwalked : decFields c desc (commandBytes cmd) cmd.id cmd.seq cmd.status 5 = .ok cmd := by
      rw [decFields, hwalk]
      simp [hfields]
    have hhead : commandBytes cmd = cmd.id :: cmd.seq :: cmd.status :: (commandBytes cmd).drop 3 := rfl
    rw [hhead, ccDecode, hdesc, ← hhead]
    simp only [hstored, hlong, hwalked, ne_eq, not_true, if_true, if_false]
  · cases htyped
  · cases htyped

/-! ### The inbound chain, end to end -/

/-- The frame of a payload that decodes, received byte by byte into an empty receiver, leaves what
dispatching the command leaves, but for the contents of `RXB` (R136, R230). -/
theorem receives_frame {s : State} {p : List Byte} {cmd : Command} (now : Time)
    (hup : s.linkUp = true) (hwf : s.rxb.wf = true) (hlen : s.rxLen = 0) (hesc : s.rxEsc = false)
    (hdrop : s.rxDrop = false) (hcap : p.length + 2 ≤ s.cfg.rxCap)
    (hdec : ccDecode s.cfg p = .ok cmd) :
    ∃ m, Receives now s (fcEncode p) (withRxb m .none (dispatch cmd now s)) := by
  obtain ⟨t1, hopen, hstart⟩ := receives_openingMark now hup hwf hlen hesc hdrop
  obtain ⟨t, hbody, ht⟩ := hstart.receives_flatMap (now := now) hup hesc hdrop (p ++ trailer p)
    (by simp [trailer]; omega)
  rw [List.nil_append] at ht
  have hclose := exec_rxByte_of_delivered now (ht.linkUp_eq.trans hup)
    (ht.feed_closingMark hesc hdrop hcap) (by rw [← hdec, ← ht.cfg_eq])
  have hend : respond (.fed (some p)) { t with rxLen := 0 } = withRxb t.rxb (.fed (some p)) s := by
    rw [ht.frame]
    simp [respond, withRxb, ← hlen]
  rw [hend, dispatch_withRxb] at hclose
  refine ⟨t.rxb, ?_⟩
  rw [fcEncode_eq]
  exact hopen.append (hbody.append (.single hclose))

/-- Settles O42: the bytes of the command's frame accumulate its encoding, the closing marker delivers
it, it decodes to the command, and dispatch neither reads nor writes `RXB`. -/
theorem receiveChainDeliversAWholeFrame : Obligations.ReceiveChainDeliversAWholeFrame := by
  unfold Obligations.ReceiveChainDeliversAWholeFrame
  intro s cmd m now hup hwf hlen hesc hdrop hm htyped hack henc hcap
  obtain ⟨hbytes, hle⟩ := ccEncode_of_ne_nil hack henc
  rw [hbytes] at hcap ⊢
  obtain ⟨mem, hrun⟩ := receives_frame now hup hwf hlen hesc hdrop hcap
    (ccDecode_commandBytes htyped (by omega))
  refine ⟨respond .none (dispatch cmd now s), _, rfl, hrun.foldl_eq ?_, rfl⟩
  intro b x y hxy
  simp only [hxy]

end Sys2Proof.Proofs
end

section
/-! Proofs of the family 10_state: what one step can do to the queue and the streams, to the receiver and
to the session, and the invariants of R49 derived from it. -/

namespace Sys2Proof.Proofs

open Sys2Proof Sys2Proof.Machine Sys2Proof.Safety

/-! ### What an operation can do to the queue -/

/-- The moves of one slot's item when nothing is created or sent (R180): it stays, is freed, or goes back to
`WaitSend` with one more retry. -/
inductive ItemMove (c : Config) (q : QueueItem) : QueueItem → Prop where
  | stay : ItemMove c q q
  | freed : ItemMove c q { q with state := .init }
  | retried (hst : q.state = .waitConfirm) (hroom : q.retries.toNat < c.maxRetries) :
      ItemMove c q { q with retries := q.retries + 1, state := .waitSend }

namespace ItemMove

variable {c : Config} {q q' : QueueItem}

theorem cmd_eq (h : ItemMove c q q') : q'.cmd = q.cmd := by cases h <;> rfl

theorem nonFree (h : ItemMove c q q') (h' : q'.state ≠ .init) : q.state ≠ .init := by
  cases h with
  | stay => exact h'
  | freed => exact absurd rfl h'
  | retried hst _ => rw [hst]; decide

theorem waitConfirm (h : ItemMove c q q') (h' : q'.state = .waitConfirm) :
    q.state = .waitConfirm := by
  cases h with
  | stay => exact h'
  | freed | retried _ _ => cases h'

theorem retries_le (h : ItemMove c q q') (hq : q.retries.toNat ≤ c.maxRetries) :
    q'.retries.toNat ≤ c.maxRetries := by
  cases h with
  | stay | freed => exact hq
  | retried _ hroom =>
    calc (q.retries + 1).toNat ≤ q.retries.toNat + 1 := by
          rw [BitVec.toNat_add]; exact Nat.mod_le _ _
      _ ≤ c.maxRetries := hroom

end ItemMove

/-- One elementary change of the CommandQueue that hands nothing to the Transport: every slot makes a move of
its own, or one free slot takes a new command that encodes, under a number of `SQ.SEQ` (R180, R185). -/
inductive QueueMove (s t : State) : Prop where
  | settle (h : ∀ i : Fin 32, ItemMove s.cfg s.cq[i] t.cq[i])
  | create (j : Fin 32) (cmd : Command) (target : Option Dest) (now : Time)
      (hfree : s.cq[j].state = .init) (henc : encodes s cmd = true)
      (h : t.cq = (setItem j (newItem cmd (nextSeq s) target now) s).cq)

/-- The parameters and the coming transfers stay, events are only appended, nothing goes to `tx`. -/
structure Extends (s t : State) : Prop where
  cfg_eq : t.cfg = s.cfg
  inbox_eq : t.inbox = s.inbox
  ev_prefix : s.ev <+: t.ev
  tx_eq : t.tx = s.tx

theorem Extends.refl (s : State) : Extends s s := ⟨rfl, rfl, List.prefix_rfl, rfl⟩

theorem Extends.trans {s t u : State} (h : Extends s t) (h' : Extends t u) : Extends s u :=
  ⟨h'.cfg_eq.trans h.cfg_eq, h'.inbox_eq.trans h.inbox_eq, h.ev_prefix.trans h'.ev_prefix,
    h'.tx_eq.trans h.tx_eq⟩

/-- One elementary change of the state that hands nothing to the Transport. -/
structure Move (s t : State) : Prop where
  ext : Extends s t
  queue : QueueMove s t

/-- Any number of elementary changes that hand nothing to the Transport. -/
abbrev Moves : State → State → Prop := Relation.ReflTransGen Move

/-- One waiting item goes into flight, within the window, and its whole frame to the Transport (R208). -/
structure Sent (j : Fin 32) (s t : State) : Prop where
  cfg_eq : t.cfg = s.cfg
  inbox_eq : t.inbox = s.inbox
  ev_eq : t.ev = s.ev
  tx_eq : t.tx = s.tx ++ itemFrame s j
  waiting : s.cq[j].state = .waitSend
  room : inflight s < window
  cq_eq : ∃ now, t.cq = (setItem j { s.cq[j] with state := .waitConfirm, tTx := now } s).cq

/-- What every operation but `SYS.RESET` can do: elementary changes, and at most one frame sent at the end. -/
def Serves (s t : State) : Prop := ∃ u, Moves s u ∧ (t = u ∨ ∃ j, Sent j u t)

/-- The queue holds nothing. -/
def Cleared (s : State) : Prop := ∀ i : Fin 32, s.cq[i].state = .init

theorem Moves.ext {s t : State} (h : Moves s t) : Extends s t := by
  induction h with
  | refl => exact .refl s
  | tail _ hm ih => exact ih.trans hm.ext

theorem Moves.serves {s t : State} (h : Moves s t) : Serves s t := ⟨t, h, .inl rfl⟩

/-- A change outside the queue. -/
theorem Move.of_cq_eq {s t : State} (h : Extends s t) (hcq : t.cq = s.cq) : Move s t :=
  ⟨h, .settle (fun i => by rw [hcq]; exact .stay)⟩

/-- The fields that elementary changes speak of. -/
def queueView (s : State) :
    Config × List Transfer × List Event × List Byte × Vector QueueItem 32 :=
  (s.cfg, s.inbox, s.ev, s.tx, s.cq)

theorem queueView_eq_iff {s t : State} : queueView t = queueView s ↔
    t.cfg = s.cfg ∧ t.inbox = s.inbox ∧ t.ev = s.ev ∧ t.tx = s.tx ∧ t.cq = s.cq := by
  simp only [queueView, Prod.mk.injEq]

/-- A change that writes no field of the queue or the streams. -/
theorem Move.of_same {s t : State} (h : queueView t = queueView s) : Move s t := by
  obtain ⟨hcfg, hin, hev, htx, hcq⟩ := queueView_eq_iff.1 h
  exact .of_cq_eq ⟨hcfg, hin, hev ▸ List.prefix_rfl, htx⟩ hcq

/-- One slot makes its move, and events are appended. -/
theorem Move.of_setItem {s t : State} {i : Fin 32} {q : QueueItem} (h : Extends s t)
    (hq : ItemMove s.cfg s.cq[i] q) (hcq : t.cq = (setItem i q s).cq) : Move s t := by
  refine ⟨h, .settle (fun k => ?_)⟩
  rw [hcq, setItem_at]
  split
  · next hik => exact hik ▸ hq
  · exact .stay

theorem Move.moves {s t : State} (h : Move s t) : Moves s t := .single h

/-- A loop whose every turn is an elementary change. -/
theorem Moves.foldl {α : Type} {f : State → α → State} (hf : ∀ s a, Move s (f s a)) (l : List α) :
    ∀ s, Moves s (l.foldl f s) := by
  induction l with
  | nil => intro s; exact .refl
  | cons a l ih => intro s; exact .head (hf s a) (ih (f s a))

/-! ### The elementary changes of the named operations -/

theorem move_respond (r : Resp) (s : State) : Move s (respond r s) := .of_same rfl

theorem move_emit (e : Event) (s : State) : Move s (emit e s) :=
  .of_cq_eq ⟨rfl, rfl, List.prefix_append _ _, rfl⟩ rfl

theorem move_of_sameButReceiver {s t : State} (h : sameButReceiver s t) : Move s t := by
  rw [h]; exact .of_same rfl

theorem move_killSlot (s : State) (i : Fin 32) : Move s (killSlot s i) := by
  unfold killSlot
  split
  · exact .of_same rfl
  · rw [emitDone_eq]
    exact .of_setItem ⟨rfl, rfl, List.prefix_append _ _, rfl⟩ .freed rfl

theorem moves_killAll (s : State) : Moves s (killAll s) := by
  have hslots : Moves s (slots.foldl killSlot s) := .foldl move_killSlot _ s
  have hrequests : Moves _ ((pqContent s).foldl killRequest (slots.foldl killSlot s)) :=
    .foldl (fun s r => move_emit _ s) _ _
  exact (hslots.trans hrequests).tail (.of_same rfl)

theorem move_sweepSlot (now : Time) (s : State) (i : Fin 32) : Move s (sweepSlot now s i) := by
  unfold sweepSlot
  split
  · next hout =>
    simp only [timedOut, Bool.and_eq_true, beq_iff_eq] at hout
    split
    · next hroom => exact .of_setItem ⟨rfl, rfl, List.prefix_rfl, rfl⟩ (.retried hout.1 hroom) rfl
    · rw [expireItem, countFailure_eq, emitDone_eq]
      exact .of_setItem ⟨rfl, rfl, ⟨_, (List.append_assoc _ _ _).symm⟩, rfl⟩ .freed rfl
  · exact .of_same rfl

theorem moves_sweep (now : Time) (s : State) : Moves s (sweep now s) := .foldl (move_sweepSlot now) _ s

theorem move_enqCore (cmd : Command) (target : Option Dest) (now : Time) (s : State) :
    Move s (enqCore cmd target now s).1 := by
  obtain ⟨_, h⟩ | ⟨j, _, _, h⟩ | ⟨j, hj, henc, h⟩ := enqCore_cases s cmd target now <;> rw [h]
  · exact .of_same rfl
  · exact .of_same rfl
  · rw [enqWrite_eq]
    exact ⟨⟨rfl, rfl, List.prefix_rfl, rfl⟩,
      .create j cmd target now (findFree_some s hj) henc rfl⟩

/-- Everything `gen_bulk` can do: fail the popped request, or enqueue the command it resolves to (R206). -/
theorem genBulk_cases (now : Time) (answer : Option Command) (s : State) :
    genBulk now answer s = rejectBulk s.pq[s.pqRd] (pqPop s) ∨
    ∃ cmd, genBulk now answer s =
      (enqCore cmd (some (.bulk s.pq[s.pqRd])) now (pqPop s)).1 := by
  cases answer with
  | none => exact .inl rfl
  | some cmd =>
    unfold genBulk
    obtain ⟨_, h⟩ | ⟨j, _, _, h⟩ | ⟨j, _, _, h⟩ :=
      enqCore_cases (pqPop s) cmd (some (.bulk s.pq[s.pqRd])) now
    · left; simp only [h]
    · left; simp only [h]
    · right; exact ⟨cmd, by simp only [h]⟩

/-- Everything generation can do: nothing, enqueue one of the Scheduler's own commands, or serve the oldest
pending request (R204). -/
theorem generate_cases (now : Time) (answer : Option Command) (s : State) :
    generate now answer s = s ∨
    (∃ cmd, generate now answer s = (enqCore cmd none now s).1) ∨
    generate now answer s = genBulk now answer s := by
  unfold generate
  split
  · exact .inr (.inl ⟨_, rfl⟩)
  · split
    · unfold genFetch
      split
      · exact .inr (.inl ⟨_, rfl⟩)
      · split
        · exact .inr (.inl ⟨_, rfl⟩)
        · exact .inl rfl
    · split
      · exact .inr (.inr rfl)
      · exact .inl rfl

theorem move_pqPop (s : State) : Move s (pqPop s) := .of_same rfl

theorem moves_genBulk (now : Time) (answer : Option Command) (s : State) :
    Moves s (genBulk now answer s) := by
  obtain h | ⟨cmd, h⟩ := genBulk_cases now answer s <;> rw [h]
  · exact (move_pqPop s).moves.tail (move_emit _ _)
  · exact (move_pqPop s).moves.tail (move_enqCore _ _ _ _)

theorem moves_generate (now : Time) (answer : Option Command) (s : State) :
    Moves s (generate now answer s) := by
  obtain h | ⟨cmd, h⟩ | h := generate_cases now answer s
  · rw [h]
  · rw [h]; exact (move_enqCore _ _ _ _).moves
  · rw [h]; exact moves_genBulk now answer s

theorem move_confirmMatch (cmd : Command) (now : Time) (s : State) :
    Move s (confirmMatch cmd now s) := by
  unfold confirmMatch
  split
  · exact .of_same rfl
  · rw [emitDone_eq]
    exact .of_setItem ⟨rfl, rfl, List.prefix_append _ _, rfl⟩ .freed rfl

theorem move_updateStatus (cmd : Command) (s : State) : Move s (updateStatus cmd s) := by
  unfold updateStatus
  split
  · exact .of_same rfl
  · split
    · exact .of_same rfl
    · exact .of_cq_eq ⟨rfl, rfl, List.prefix_append _ _, rfl⟩ rfl

theorem moves_dispatch (cmd : Command) (now : Time) (s : State) : Moves s (dispatch cmd now s) :=
  ((move_confirmMatch cmd now s).moves.tail (move_updateStatus cmd _)).tail (move_emit _ _)

theorem moves_receive (p : List Byte) (now : Time) (s : State) : Moves s (receive p now s) := by
  obtain ⟨cmd, _, h⟩ | ⟨e, _, h⟩ := receive_cases s p now <;> rw [h]
  · exact moves_dispatch cmd now s
  · exact Move.moves (.of_same rfl)

/-- The send step does nothing, or sends one item's whole frame (R208). -/
theorem serves_sendOne {s u t : State} {now : Time} {txOk : Bool} (hsu : Moves s u)
    (ht : queueView t = queueView (sendOne now txOk u)) : Serves s t := by
  obtain h | ⟨j, _, hj, hroom, _, h⟩ := sendOne_cases u now txOk <;> rw [h] at ht
  · exact Moves.serves (hsu.tail (.of_same ht))
  · obtain ⟨hcfg, hin, hev, htx, hcq⟩ := queueView_eq_iff.1 ht
    exact ⟨u, hsu, .inr ⟨j, hcfg, hin, hev, htx, hj, hroom, now, hcq⟩⟩

/-! ### What the operations can do, one lemma each -/

theorem fedNothing_sameButReceiver {s s1 t : State} (h : fedNothing s1 = .next t)
    (hs : sameButReceiver s s1) : sameButReceiver s t := by
  cases h
  unfold sameButReceiver at hs ⊢
  rw [hs]
  rfl

/-- A receiver step that goes on, whichever it is, touches the receiver's fields only (R125). -/
theorem feedStep_sameButReceiver {s t : State} {sel : FeedSel} (h : feedStep sel s = .next t) :
    sameButReceiver s t := by
  cases sel with
  | resync _ | skip _ _ | flush | esc _ | badesc _ => exact fedNothing_sameButReceiver h rfl
  | tmark | tesc => exact fedNothing_sameButReceiver h (rxAppend_sameButReceiver { s with rxEsc := false } _)
  | data b => exact fedNothing_sameButReceiver h (rxAppend_sameButReceiver s b)
  | endFrame =>
    change execFeedEnd s = .next t at h
    unfold execFeedEnd at h
    split at h
    · split at h
      · split at h
        · cases h; rfl
        · exact fedNothing_sameButReceiver h rfl
      · cases h
    · exact fedNothing_sameButReceiver h rfl

/-- A decode step by itself writes its locals and the result (log 3). -/
theorem endDecStep_view {r : Except ParseError DecWork} {s t : State}
    (h : endDecStep r s = .next t) : queueView t = queueView s := by
  cases r <;> cases h <;> rfl

/-- An encode step by itself writes its locals and the result (log 3). -/
theorem endEncStep_view {r : Option EncWork} {s t : State}
    (h : endEncStep r s = .next t) : queueView t = queueView s := by
  cases r <;> cases h <;> rfl

/-- `CC.DEC` on `HOST` answers with some result (R241). -/
theorem execCcDec_cases {buf : List Byte} {s t : State} (h : execCcDec buf s = .next t) :
    ∃ r, t = respond r s := by
  unfold execCcDec at h
  split at h <;> cases h <;> exact ⟨_, rfl⟩

/-- Everything `SQ.ENQ` can do: answer that the link is down, or leave what `enq_core` leaves, with or
without one event (R184). -/
theorem execSqEnq_cases {cmd : Command} {x : Nat} {now : Time} {s t : State}
    (h : execSqEnq cmd x now s = .next t) :
    (s.linkUp = false ∧ t = respond (.err .disconnected) s) ∨
    (s.linkUp = true ∧ ∃ target r, t = respond r (enqCore cmd target now s).1 ∨
      ∃ e, t = respond r (emit e (enqCore cmd target now s).1)) := by
  unfold execSqEnq at h
  split at h
  · next hup =>
    refine .inr ⟨hup, some (.ext (targetPort s.cfg x)), ?_⟩
    split at h
    · next s1 j henq =>
      rw [henq]
      exact ⟨.okSlot j, .inl (Host.Outcome.next.inj h).symm⟩
    · next s1 e henq =>
      rw [henq]
      split at h
      · exact ⟨.err e, .inr ⟨_, (Host.Outcome.next.inj h).symm⟩⟩
      · exact ⟨.err e, .inl (Host.Outcome.next.inj h).symm⟩
  · next hdown => exact .inl ⟨by simpa using hdown, (Host.Outcome.next.inj h).symm⟩

/-- Everything `PQ.PUSH` can do: answer an error, or put the entry (R188). -/
theorem execPqPush_cases {x : Nat} {s t : State} (h : execPqPush x s = .next t) :
    (∃ r, t = respond r s) ∨
    (s.linkUp = true ∧ s.pqCnt ≠ pqCap ∧ t = respond .ok (pqPut (reqIdPort s.cfg x) s)) := by
  unfold execPqPush at h
  split at h
  · next hup =>
    split at h
    · exact .inl ⟨_, (Host.Outcome.next.inj h).symm⟩
    · next hroom => exact .inr ⟨hup, hroom, (Host.Outcome.next.inj h).symm⟩
  · exact .inl ⟨_, (Host.Outcome.next.inj h).symm⟩

/-- Everything `SQ.TICK` can do: its body when enabled, nothing otherwise (R200). -/
theorem execSqTick_cases {now : Time} {txOk : Bool} {answer : Option Command} {s t : State}
    (h : execSqTick now txOk answer s = .next t) :
    (s.timerArmed = true ∧ t = respond .none (tickBody now txOk answer s)) ∨ t = respond .none s := by
  unfold execSqTick at h
  split at h
  · next hen =>
    simp only [tickEnabled, Bool.and_eq_true] at hen
    exact .inl ⟨hen.1, (Host.Outcome.next.inj h).symm⟩
  · exact .inr (Host.Outcome.next.inj h).symm

/-- Everything `RX.BYTE` can do: nothing with the link down; otherwise one receiver step, and the handling
of what it delivers (R230). -/
theorem execRxByte_cases {b : Byte} {now : Time} {s t : State} (h : execRxByte b now s = .next t) :
    t = respond .none s ∨
    (s.linkUp = true ∧ ∃ s1, feed b s = .next s1 ∧
      (t = respond .none s1 ∨ ∃ p, t = respond .none (receive p now s1))) := by
  unfold execRxByte at h
  split at h
  · next hup =>
    split at h
    · next s1 hfeed =>
      refine .inr ⟨hup, s1, hfeed, ?_⟩
      split at h
      · next p _ => exact .inr ⟨p, (Host.Outcome.next.inj h).symm⟩
      · exact .inl (Host.Outcome.next.inj h).symm
    · cases h
    · cases h
  · exact .inl (Host.Outcome.next.inj h).symm

/-- Everything `EV.CONN` can do: nothing with the link up, a session's start otherwise (R234). -/
theorem execEvConn_cases {now : Time} {s t : State} (h : execEvConn now s = .next t) :
    t = respond .none s ∨ t = respond .none (emit .connected (connect now s)) := by
  unfold execEvConn at h
  split at h
  · exact .inl (Host.Outcome.next.inj h).symm
  · exact .inr (Host.Outcome.next.inj h).symm

/-! ### Every operation but `SYS.RESET` serves the queue -/

theorem serves_of_same {s t : State} (h : queueView t = queueView s) : Serves s t :=
  (Move.of_same h).moves.serves

/-- What is answered at the end reaches neither the queue nor the streams. -/
theorem serves_respond {s u : State} (r : Resp) (h : Moves s u) : Serves s (respond r u) :=
  Moves.serves (h.tail (move_respond r u))

theorem queueView_respond_rearm (r : Resp) (now : Time) (s : State) :
    queueView (respond r (rearm now s)) = queueView s := rfl

theorem serves_execSqEnq {cmd : Command} {x : Nat} {now : Time} {s t : State}
    (h : execSqEnq cmd x now s = .next t) : Serves s t := by
  obtain ⟨_, rfl⟩ | ⟨_, target, r, rfl | ⟨e, rfl⟩⟩ := execSqEnq_cases h
  · exact serves_of_same rfl
  · exact serves_respond r (move_enqCore cmd target now s).moves
  · exact serves_respond r ((move_enqCore cmd target now s).moves.tail (move_emit e _))

theorem serves_execSqTick {now : Time} {txOk : Bool} {answer : Option Command} {s t : State}
    (h : execSqTick now txOk answer s = .next t) : Serves s t := by
  obtain ⟨_, rfl⟩ | rfl := execSqTick_cases h
  · have hdisarm : Moves s (disarmTimer s) := Move.moves (.of_same rfl)
    exact serves_sendOne (now := now) (txOk := txOk)
      ((hdisarm.trans (moves_sweep now _)).trans (moves_generate now answer _))
      (queueView_respond_rearm .none now _)
  · exact serves_of_same rfl

theorem serves_execRxByte {b : Byte} {now : Time} {s t : State}
    (h : execRxByte b now s = .next t) : Serves s t := by
  obtain rfl | ⟨_, s1, hfeed, ht⟩ := execRxByte_cases h
  · exact serves_of_same rfl
  · have hfed : Moves s s1 := (move_of_sameButReceiver (feed_sameButReceiver s hfeed)).moves
    obtain rfl | ⟨p, rfl⟩ := ht
    · exact serves_respond .none hfed
    · exact serves_respond .none (hfed.trans (moves_receive p now s1))

theorem serves_feedStep {sel : FeedSel} {s t : State} (h : feedStep sel s = .next t) : Serves s t :=
  (move_of_sameButReceiver (feedStep_sameButReceiver h)).moves.serves

/-- Every operation but `SYS.RESET` only makes elementary changes to the queue and the streams, and sends at
most one frame. -/
theorem exec_serves {i : Instr} {s t : State} (h : exec i s = .next t) (hi : i ≠ .sysReset) :
    Serves s t := by
  cases i with
  | sysReset => exact absurd rfl hi
  | feedResync e => exact serves_feedStep (sel := .resync e) h
  | feedSkip e b => exact serves_feedStep (sel := .skip e b) h
  | feedFlush => exact serves_feedStep (sel := .flush) h
  | feedEnd => exact serves_feedStep (sel := .endFrame) h
  | feedEsc e => exact serves_feedStep (sel := .esc e) h
  | feedTmark => exact serves_feedStep (sel := .tmark) h
  | feedTesc => exact serves_feedStep (sel := .tesc) h
  | feedBadesc b => exact serves_feedStep (sel := .badesc b) h
  | feedData b => exact serves_feedStep (sel := .data b) h
  | decS1 | decS2 | decS4 | decS8 | decStr | decR1 | decR2 | decR4 | decR8 | decRaw =>
    exact serves_of_same (endDecStep_view h)
  | decBad _ => exact serves_of_same (endDecStep_view (r := .error .unknownField) h)
  | encS1 _ | encS2 _ | encS4 _ | encS8 _ | encStr _ | encR1 _ | encR2 _ | encR4 _ | encR8 _ | encRaw _ =>
    exact serves_of_same (endEncStep_view h)
  | encBad _ => exact serves_of_same (endEncStep_view (r := none) h)
  | fcEnc _ | ccEnc _ _ | sqSeq | tickRearm _ | sysClrdiag | sysRdcsr _ =>
    obtain rfl := Host.Outcome.next.inj h
    exact serves_of_same rfl
  | ccDec buf =>
    obtain ⟨r, rfl⟩ := execCcDec_cases h
    exact serves_of_same rfl
  | pqPush x =>
    obtain ⟨r, rfl⟩ | ⟨_, _, rfl⟩ := execPqPush_cases h
    · exact serves_of_same rfl
    · exact serves_of_same rfl
  | evConn now =>
    obtain rfl | rfl := execEvConn_cases h
    · exact serves_of_same rfl
    · have hconn : Moves s (connect now s) := Move.moves (.of_same rfl)
      exact serves_respond .none (hconn.tail (move_emit _ _))
  | sqKill =>
    obtain rfl := Host.Outcome.next.inj h
    exact serves_respond .none (moves_killAll s)
  | evDisc reason =>
    obtain rfl := Host.Outcome.next.inj h
    have hdisarm : Moves s (disarmTimer s) := Move.moves (.of_same rfl)
    have hdown : Moves s { killAll (disarmTimer s) with linkUp := false } :=
      (hdisarm.trans (moves_killAll _)).tail (.of_same rfl)
    exact serves_respond .none (hdown.tail (move_emit _ _))
  | tickSweep now =>
    obtain rfl := Host.Outcome.next.inj h
    exact serves_respond .none (moves_sweep now s)
  | tickGen now answer =>
    obtain rfl := Host.Outcome.next.inj h
    exact serves_respond .none (moves_generate now answer s)
  | tickSend now txOk =>
    obtain rfl := Host.Outcome.next.inj h
    exact serves_sendOne .refl rfl
  | sqDisp cmd now =>
    obtain rfl := Host.Outcome.next.inj h
    exact serves_respond .none (moves_dispatch cmd now s)
  | sqEnq cmd x now => exact serves_execSqEnq h
  | sqTick now txOk answer => exact serves_execSqTick h
  | rxByte b now => exact serves_execRxByte h

/-! ### What a step can do -/

/-- Everything a step can do: nothing with an empty inbox, perform the decoded operation, or answer a
reserved code (R72, R101). -/
theorem step_cases {s t : State} (h : step s = .next t) :
    (s.inbox = [] ∧ t = s) ∨
    ∃ x rest, s.inbox = x :: rest ∧
      ((∃ i, decode x = .ok i ∧ exec i { s with inbox := rest } = .next t) ∨
        ∃ r, t = respond r { s with inbox := rest }) := by
  unfold step at h
  split at h
  · split at h
    · next hin => exact .inl ⟨hin, (Host.Outcome.next.inj h).symm⟩
    · next x rest hin =>
      refine .inr ⟨x, rest, hin, ?_⟩
      split at h
      · next i hdec => exact .inl ⟨i, hdec, h⟩
      · exact .inr ⟨_, (Host.Outcome.next.inj h).symm⟩
      · exact .inr ⟨_, (Host.Outcome.next.inj h).symm⟩
  · cases h

theorem item_reset (i : Fin 32) : State.reset.cq[i] = QueueItem.reset :=
  Vector.getElem_replicate i.isLt

theorem cleared_reset : Cleared State.reset := fun i => congrArg QueueItem.state (item_reset i)

/-- `SYS.RESET` leaves the reset values under the same parameters (R238). -/
theorem execSysReset_eq {s t : State} (h : exec .sysReset s = .next t) :
    t = { State.reset with cfg := s.cfg, inbox := s.inbox } := (Host.Outcome.next.inj h).symm

theorem cleared_execSysReset {s t : State} (h : exec .sysReset s = .next t) : Cleared t := by
  rw [execSysReset_eq h]
  exact cleared_reset

/-- A predicate on the queue that every elementary change, every transmission and every emptying keeps. -/
structure QueueInvariant (P : State → Prop) : Prop where
  move : ∀ {s t : State}, P s → t.cfg = s.cfg → QueueMove s t → P t
  sent : ∀ {j : Fin 32} {s t : State}, P s → Sent j s t → P t
  cleared : ∀ {t : State}, Cleared t → P t

namespace QueueInvariant

variable {P : State → Prop}

theorem same (hP : QueueInvariant P) {s t : State} (hs : P s) (hcfg : t.cfg = s.cfg)
    (hcq : t.cq = s.cq) : P t :=
  hP.move hs hcfg (.settle (fun i => by rw [hcq]; exact .stay))

theorem moves (hP : QueueInvariant P) {s t : State} (hs : P s) (h : Moves s t) : P t := by
  induction h with
  | refl => exact hs
  | tail _ hm ih => exact hP.move ih hm.ext.cfg_eq hm.queue

theorem serves (hP : QueueInvariant P) {s t : State} (hs : P s) (h : Serves s t) : P t := by
  obtain ⟨u, hsu, rfl | ⟨j, hsent⟩⟩ := h
  · exact hP.moves hs hsu
  · exact hP.sent (hP.moves hs hsu) hsent

theorem exec (hP : QueueInvariant P) {i : Instr} {s t : State} (hs : P s)
    (h : Machine.exec i s = .next t) : P t := by
  by_cases hi : i = .sysReset
  · subst hi
    exact hP.cleared (cleared_execSysReset h)
  · exact hP.serves hs (exec_serves h hi)

/-- Every step keeps an invariant of the queue. -/
theorem step (hP : QueueInvariant P) {s t : State} (hs : P s) (h : Machine.step s = .next t) :
    P t := by
  obtain ⟨_, rfl⟩ | ⟨x, rest, _, ⟨i, _, hexec⟩ | ⟨r, rfl⟩⟩ := step_cases h
  · exact hs
  · exact hP.exec (s := { s with inbox := rest }) (hP.same hs rfl rfl) hexec
  · exact hP.same hs rfl rfl

end QueueInvariant

/-! ### The in-flight bound (R49 (c)) -/

/-- A count rises by the occurrences of the one element that newly has the property. -/
theorem countP_le_add_count {α : Type} [DecidableEq α] {p q : α → Bool} {a : α} {l : List α}
    (h : ∀ x ∈ l, q x = true → p x = true ∨ x = a) :
    l.countP q ≤ l.countP p + l.count a := by
  induction l with
  | nil => simp
  | cons x l ih =>
    have ihl := ih (fun y hy => h y (List.mem_cons_of_mem x hy))
    have hx := h x List.mem_cons_self
    rw [List.countP_cons, List.countP_cons, List.count_cons]
    by_cases hqx : q x = true
    · obtain hpx | rfl := hx hqx
      · rw [if_pos hqx, if_pos hpx]
        omega
      · rw [if_pos hqx, if_pos (beq_self_eq_true x)]
        omega
    · rw [if_neg hqx]
      omega

/-- If every item in flight was in flight before, there are no more of them. -/
theorem inflight_mono {s t : State}
    (h : ∀ i : Fin 32, t.cq[i].state = .waitConfirm → s.cq[i].state = .waitConfirm) :
    inflight t ≤ inflight s :=
  List.countP_mono_left (fun i _ hi => beq_iff_eq.2 (h i (beq_iff_eq.1 hi)))

theorem Sent.cmd_eq {j : Fin 32} {s t : State} (h : Sent j s t) (i : Fin 32) :
    t.cq[i].cmd = s.cq[i].cmd := by
  obtain ⟨now, hcq⟩ := h.cq_eq
  rw [hcq, setItem_at]
  split
  · next hij => rw [← hij]
  · rfl

theorem Sent.retries_eq {j : Fin 32} {s t : State} (h : Sent j s t) (i : Fin 32) :
    t.cq[i].retries = s.cq[i].retries := by
  obtain ⟨now, hcq⟩ := h.cq_eq
  rw [hcq, setItem_at]
  split
  · next hij => rw [← hij]
  · rfl

theorem Sent.state_eq {j : Fin 32} {s t : State} (h : Sent j s t) (i : Fin 32) :
    t.cq[i].state = if j = i then .waitConfirm else s.cq[i].state := by
  obtain ⟨now, hcq⟩ := h.cq_eq
  rw [hcq, setItem_at]
  split <;> rfl

theorem Sent.nonFree {j : Fin 32} {s t : State} (h : Sent j s t) {i : Fin 32} (hi : nonFree t i) :
    nonFree s i := by
  unfold Safety.nonFree at hi ⊢
  rw [h.state_eq] at hi
  split at hi
  · next hji => rw [← hji, h.waiting]; decide
  · exact hi

/-- A transmission puts one item into flight. -/
theorem Sent.inflight_le {j : Fin 32} {s t : State} (h : Sent j s t) :
    inflight t ≤ inflight s + 1 := by
  have hnew : inflight t ≤ inflight s + slots.count j :=
    countP_le_add_count (fun i _ hi => by
      rw [beq_iff_eq, h.state_eq] at hi
      split at hi
      · next hji => exact .inr hji.symm
      · exact .inl (beq_iff_eq.2 hi))
  have hone : slots.count j ≤ 1 := List.nodup_iff_count_le_one.1 (List.nodup_finRange 32) j
  omega

theorem Cleared.not_nonFree {t : State} (h : Cleared t) (i : Fin 32) : ¬ nonFree t i :=
  fun hi => hi (h i)

theorem windowOk_invariant : QueueInvariant windowOk where
  move := by
    intro s t hs _ h
    refine (inflight_mono (fun i hi => ?_)).trans hs
    cases h with
    | settle hitems => exact (hitems i).waitConfirm hi
    | create j cmd target now _ _ hcq =>
      rw [hcq, setItem_at] at hi
      split at hi
      · cases hi
      · exact hi
  sent := by
    intro j s t _ h
    have hroom : inflight s < 2 := h.room
    have hle := h.inflight_le
    unfold windowOk
    omega
  cleared := by
    intro t h
    have hnone : inflight t = 0 := List.countP_eq_zero.2 (fun i _ => by rw [beq_iff_eq, h i]; decide)
    unfold windowOk
    omega

/-- Settles O52: an item goes into flight only by a transmission, and only with fewer than two there. -/
theorem atMostTwoItemsInFlight : Obligations.AtMostTwoItemsInFlight := by
  unfold Obligations.AtMostTwoItemsInFlight
  intro s t hs h
  exact windowOk_invariant.step hs h

/-! ### Distinct sequence numbers (R49 (d), R183) -/

theorem seqInUse_iff (s : State) (n : Byte) : seqInUse s n = true ↔ seqHeld s n := by
  simp [seqInUse, seqHeld, nonFree, free]

/-- If the search ends at a held number, every number it passed is held as well (R183). -/
theorem seqHeld_of_seqSearch {s : State} : ∀ {fuel : Nat} {n : Byte},
    seqHeld s (seqSearch s fuel n) → ∀ k ≤ fuel, seqHeld s (n + BitVec.ofNat 8 k)
  | 0, n, h, k, hk => by
    obtain rfl : k = 0 := by omega
    simpa [seqSearch] using h
  | fuel + 1, n, h, k, hk => by
    unfold seqSearch at h
    split at h
    · next huse =>
      cases k with
      | zero => simpa using (seqInUse_iff s n).1 huse
      | succ k =>
        have hnext := seqHeld_of_seqSearch h k (by omega)
        rw [Nat.add_comm k 1, BitVec.ofNat_add, ← BitVec.add_assoc]
        exact hnext
    · next hfree => exact absurd ((seqInUse_iff s n).2 h) hfree

/-- 32 slots do not hold 256 numbers. -/
theorem exists_not_seqHeld (s : State) : ∃ n : Byte, ¬ seqHeld s n := by
  by_contra! hall
  have hsurj : Function.Surjective (fun i : Fin 32 => s.cq[i].cmd.seq.toFin) := by
    intro m
    obtain ⟨i, _, hi⟩ := hall (BitVec.ofFin m)
    exact ⟨i, congrArg BitVec.toFin hi⟩
  have hcard := Fintype.card_le_of_surjective _ hsurj
  simp at hcard

/-- The number `SQ.SEQ` hands out is held by no item (R183). -/
theorem not_seqHeld_nextSeq (s : State) : ¬ seqHeld s (nextSeq s) := by
  intro hheld
  obtain ⟨n, hn⟩ := exists_not_seqHeld s
  have hat := seqHeld_of_seqSearch hheld (n - (s.seqCtr + 1)).toNat (by omega)
  rw [BitVec.ofNat_toNat, BitVec.setWidth_eq, BitVec.add_comm, BitVec.sub_add_cancel] at hat
  exact hn hat

/-- After slot `j` is written, a slot is `j` with the new item or another with the item it held. -/
theorem item_of_setItem {s t : State} {j : Fin 32} {q : QueueItem} (h : t.cq = (setItem j q s).cq)
    (i : Fin 32) : (j = i ∧ t.cq[i] = q) ∨ (j ≠ i ∧ t.cq[i] = s.cq[i]) := by
  rw [h, setItem_at]
  split
  · next hji => exact .inl ⟨hji, rfl⟩
  · next hji => exact .inr ⟨hji, rfl⟩

/-- Distinct numbers stay distinct if every item held its number before. -/
theorem seqUnique_of_held {s t : State} (hs : seqUnique s)
    (h : ∀ i : Fin 32, nonFree t i → nonFree s i ∧ t.cq[i].cmd.seq = s.cq[i].cmd.seq) :
    seqUnique t := by
  intro i j hi hj hij
  obtain ⟨hi', hieq⟩ := h i hi
  obtain ⟨hj', hjeq⟩ := h j hj
  exact hs i j hi' hj' (hieq.symm.trans (hij.trans hjeq))

theorem seqUnique_of_create {s t : State} {j : Fin 32} {cmd : Command} {target : Option Dest}
    {now : Time} (hs : seqUnique s)
    (h : t.cq = (setItem j (newItem cmd (nextSeq s) target now) s).cq) : seqUnique t := by
  have hfresh : ∀ i : Fin 32, nonFree s i → s.cq[i].cmd.seq ≠ nextSeq s :=
    fun i hi heq => not_seqHeld_nextSeq s ⟨i, hi, heq⟩
  intro a b ha hb hab
  unfold nonFree at ha hb
  obtain ⟨rfl, hqa⟩ | ⟨_, hqa⟩ := item_of_setItem h a <;>
    obtain ⟨hjb, hqb⟩ | ⟨_, hqb⟩ := item_of_setItem h b <;> rw [hqa] at ha hab <;> rw [hqb] at hb hab
  · exact hjb
  · exact absurd hab.symm (hfresh b hb)
  · exact absurd hab (hfresh a ha)
  · exact hs a b ha hb hab

theorem seqUnique_invariant : QueueInvariant seqUnique where
  move := by
    intro s t hs _ h
    cases h with
    | settle hitems =>
      exact seqUnique_of_held hs (fun i hi =>
        ⟨(hitems i).nonFree hi, congrArg Command.seq (hitems i).cmd_eq⟩)
    | create j cmd target now _ _ hcq => exact seqUnique_of_create hs hcq
  sent := by
    intro j s t hs h
    exact seqUnique_of_held hs (fun i hi => ⟨h.nonFree hi, congrArg Command.seq (h.cmd_eq i)⟩)
  cleared := by
    intro t h i j hi
    exact absurd hi (h.not_nonFree i)

/-- Settles O53: a number is written only where an item is created, and `SQ.SEQ` gives it a free one. -/
theorem sequenceNumbersStayUnique : Obligations.SequenceNumbersStayUnique := by
  unfold Obligations.SequenceNumbersStayUnique
  intro s t hs h
  exact seqUnique_invariant.step hs h

/-! ### Encodable commands and bounded retries (R49 (g), (h)) -/

/-- Two states of `CC.ENC`'s walk with as much written and as much room (R141). -/
def sameRoom (k k' : EncWork) : Prop := k.out.length = k'.out.length ∧ k.maxLen = k'.maxLen

theorem put_sameRoom {add : List Byte} {k k' k1 : EncWork} (hk : sameRoom k k')
    (h : put add k = some k1) : ∃ k1', put add k' = some k1' ∧ sameRoom k1 k1' := by
  obtain ⟨hlen, hmax⟩ := hk
  unfold put at h ⊢
  split at h
  · cases h
  · next hroom =>
    cases h
    refine ⟨_, if_neg (by omega), ?_, hmax⟩
    simp only [List.length_append, hlen]

/-- A field step takes a value of its kind, whatever is written already (R161 to R171). -/
theorem encStep_of_takes {c : Config} {ch : Byte} {v : FieldVal} (h : stepTakes c ch v) (k : EncWork) :
    encStep c ch v k = put (fieldBytes v) k := by
  cases v with
  | scalar w x =>
    rw [encStep, show fieldKind ch = _ from h]
    exact if_pos rfl
  | cstr bs =>
    rw [encStep, show fieldKind ch = _ from h]
    rfl
  | rep w xs =>
    obtain ⟨hkind, hlen⟩ := h
    rw [encStep, hkind]
    exact (if_pos rfl).trans (if_neg (by omega))
  | raw bs =>
    obtain ⟨hkind, hlen⟩ := h
    rw [encStep, hkind]
    exact if_neg (by omega)

/-- A field step that does not fail takes its value (R161 to R171). -/
theorem stepTakes_of_encStep {c : Config} {ch : Byte} {v : FieldVal} {k k1 : EncWork}
    (h : encStep c ch v k = some k1) : stepTakes c ch v := by
  unfold encStep at h
  split at h
  · next w hkind =>
    cases v with
    | scalar w' x =>
      obtain ⟨rfl, _⟩ := Option.ite_none_right_eq_some.1 h
      exact hkind
    | cstr _ | rep _ _ | raw _ => cases h
  · next hkind =>
    cases v with
    | cstr bs => exact hkind
    | scalar _ _ | rep _ _ | raw _ => cases h
  · next w hkind =>
    cases v with
    | rep w' xs =>
      obtain ⟨rfl, hrest⟩ := Option.ite_none_right_eq_some.1 h
      exact ⟨hkind, Nat.not_lt.1 (Option.ite_none_left_eq_some.1 hrest).1⟩
    | scalar _ _ | cstr _ | raw _ => cases h
  · next hkind =>
    cases v with
    | raw bs => exact ⟨hkind, Nat.not_lt.1 (Option.ite_none_left_eq_some.1 h).1⟩
    | scalar _ _ | cstr _ | rep _ _ => cases h
  · cases h

theorem encStep_sameRoom {c : Config} {ch : Byte} {v : FieldVal} {k k' k1 : EncWork}
    (hk : sameRoom k k') (h : encStep c ch v k = some k1) :
    ∃ k1', encStep c ch v k' = some k1' ∧ sameRoom k1 k1' := by
  have htakes := stepTakes_of_encStep h
  rw [encStep_of_takes htakes] at h ⊢
  exact put_sameRoom hk h

/-- Whether the walk ends depends on the room only, not on the bytes written already (R160). -/
theorem encWalk_sameRoom {c : Config} : ∀ {desc : List Byte} {vs : List FieldVal} {k k' k1 : EncWork},
    sameRoom k k' → encWalk c desc vs k = some k1 → ∃ k1', encWalk c desc vs k' = some k1'
  | [], [], _, k', _, _, _ => ⟨k', rfl⟩
  | ch :: desc, v :: vs, k, k', k1, hk, h => by
    unfold encWalk at h ⊢
    split at h
    · next k2 hstep =>
      obtain ⟨k2', hstep', hk2⟩ := encStep_sameRoom hk hstep
      rw [hstep']
      exact encWalk_sameRoom hk2 h
    · cases h

theorem backPatch_ne_nil (out : List Byte) : backPatch out ≠ [] := by
  simp [backPatch, leBytes]

/-- `CC.ENC` does not fail: the acknowledgment has its three bytes, or the walk over the descriptor ends
(R160). -/
theorem ccEncode_ne_nil_iff {c : Config} {cmd : Command} {m : Nat} : ccEncode c cmd m ≠ [] ↔
    3 ≤ m ∧ (cmd.id = c.idAck ∨ ∃ desc, cmdEntry c cmd.id = .fields desc ∧ 5 ≤ m ∧
      ∃ k, encWalk c desc cmd.fields (encStart cmd m) = some k) := by
  constructor
  · intro h
    unfold ccEncode at h
    split at h
    · exact absurd rfl h
    · next h3 =>
      refine ⟨by omega, ?_⟩
      split at h
      · next hack => exact .inl hack
      · split at h
        · next desc hdesc =>
          split at h
          · exact absurd rfl h
          · next h5 =>
            split at h
            · next k hwalk => exact .inr ⟨desc, hdesc, by omega, k, hwalk⟩
            · exact absurd rfl h
        · exact absurd rfl h
        · exact absurd rfl h
  · rintro ⟨h3, hcmd⟩
    rw [ccEncode, if_neg (by omega)]
    split
    · exact List.cons_ne_nil _ _
    · next hack =>
      obtain hack' | ⟨desc, hdesc, h5, k, hwalk⟩ := hcmd
      · exact absurd hack' hack
      · rw [encStart] at hwalk
        simp only [hdesc, hwalk, if_neg (Nat.not_lt.2 h5)]
        exact backPatch_ne_nil k.out

/-- Whether a command encodes does not depend on its sequence number (R185). -/
theorem ccEncode_seq_ne_nil {c : Config} {cmd : Command} {m : Nat} (n n' : Byte)
    (h : ccEncode c { cmd with seq := n } m ≠ []) : ccEncode c { cmd with seq := n' } m ≠ [] := by
  rw [ccEncode_ne_nil_iff] at h ⊢
  obtain ⟨h3, hack | ⟨desc, hdesc, h5, k, hwalk⟩⟩ := h
  · exact ⟨h3, .inl hack⟩
  · have hroom : sameRoom (encStart { cmd with seq := n } m) (encStart { cmd with seq := n' } m) :=
      ⟨rfl, rfl⟩
    exact ⟨h3, .inr ⟨desc, hdesc, h5, encWalk_sameRoom hroom hwalk⟩⟩

/-- An item that `enq_core` creates encodes under its number as it did under 0 (R185). -/
theorem encodable_newItem {s : State} {cmd : Command} (henc : encodes s cmd = true) (n : Byte)
    (target : Option Dest) (now : Time) :
    ccEncode s.cfg (newItem cmd n target now).cmd s.cfg.txMax ≠ [] := by
  unfold encodes at henc
  exact ccEncode_seq_ne_nil 0 n (bne_iff_ne.1 henc)

theorem encodableOk_invariant : QueueInvariant encodableOk where
  move := by
    intro s t hs hcfg h i hi
    unfold nonFree at hi
    rw [hcfg]
    cases h with
    | settle hitems =>
      rw [(hitems i).cmd_eq]
      exact hs i ((hitems i).nonFree hi)
    | create j cmd target now _ henc hcq =>
      obtain ⟨_, hq⟩ | ⟨_, hq⟩ := item_of_setItem hcq i <;> rw [hq] at hi ⊢
      · exact encodable_newItem henc _ _ _
      · exact hs i hi
  sent := by
    intro j s t hs h i hi
    rw [h.cfg_eq, h.cmd_eq]
    exact hs i (h.nonFree hi)
  cleared := by
    intro t h i hi
    exact absurd hi (h.not_nonFree i)

theorem retriesOk_invariant : QueueInvariant retriesOk where
  move := by
    intro s t hs hcfg h i hi
    unfold nonFree at hi
    rw [hcfg]
    cases h with
    | settle hitems => exact (hitems i).retries_le (hs i ((hitems i).nonFree hi))
    | create j cmd target now _ _ hcq =>
      obtain ⟨_, hq⟩ | ⟨_, hq⟩ := item_of_setItem hcq i <;> rw [hq] at hi ⊢
      · exact Nat.zero_le _
      · exact hs i hi
  sent := by
    intro j s t hs h i hi
    rw [h.cfg_eq, h.retries_eq]
    exact hs i (h.nonFree hi)
  cleared := by
    intro t h i hi
    exact absurd hi (h.not_nonFree i)

/-- Settles O55: an item's command is written once, under a test that its number does not enter, and its
retries rise below `MAX_RETRIES` only. -/
theorem queuedCommandsStayEncodableAndWithinTheirRetries :
    Obligations.QueuedCommandsStayEncodableAndWithinTheirRetries := by
  unfold Obligations.QueuedCommandsStayEncodableAndWithinTheirRetries
  intro s t hretries henc h
  exact ⟨retriesOk_invariant.step hretries h, encodableOk_invariant.step henc h⟩

/-! ### The operations a channel selects (R86, R99) -/

/-- The rows of R99: a transfer the environment can make, and the operation it selects. -/
inductive Selects : Transfer → Instr → Prop where
  | rxByte (b : Byte) (now : Time) : Selects (.rx b now) (.rxByte b now)
  | sqEnq (x : HostOperands) (now : Time) : Selects (.host 0x01 x now) (.sqEnq x.cmd x.target now)
  | pqPush (x : HostOperands) (now : Time) : Selects (.host 0x02 x now) (.pqPush x.reqId)
  | sysRdcsr (x : HostOperands) (now : Time) : Selects (.host 0x03 x now) (.sysRdcsr x.reg)
  | sysClrdiag (x : HostOperands) (now : Time) : Selects (.host 0x04 x now) .sysClrdiag
  | sysReset (x : HostOperands) (now : Time) : Selects (.host 0x05 x now) .sysReset
  | fcEnc (x : HostOperands) (now : Time) : Selects (.host 0x08 x now) (.fcEnc x.bytes)
  | ccEnc (x : HostOperands) (now : Time) : Selects (.host 0x09 x now) (.ccEnc x.cmd x.maxLen)
  | ccDec (x : HostOperands) (now : Time) : Selects (.host 0x0A x now) (.ccDec x.bytes)
  | evConn (reason : BitVec 3) (now : Time) : Selects (.xpt 1 reason now) (.evConn now)
  | evDisc (reason : BitVec 3) (now : Time) : Selects (.xpt 2 reason now) (.evDisc reason)
  | sqTick (now : Time) (txOk : Bool) (answer : Option Command) :
      Selects (.timer now txOk answer) (.sqTick now txOk answer)

theorem decodeHost_selects {op : BitVec 5} {x : HostOperands} {now : Time} {i : Instr}
    (h : decodeHost op x now = .ok i) : Selects (.host op x now) i := by
  unfold decodeHost at h
  split at h
  · next hop => cases h; exact hop ▸ .sqEnq x now
  split at h
  · next hop => cases h; exact hop ▸ .pqPush x now
  split at h
  · next hop => cases h; exact hop ▸ .sysRdcsr x now
  split at h
  · next hop => cases h; exact hop ▸ .sysClrdiag x now
  split at h
  · next hop => cases h; exact hop ▸ .sysReset x now
  split at h
  · next hop => cases h; exact hop ▸ .fcEnc x now
  split at h
  · next hop => cases h; exact hop ▸ .ccEnc x now
  split at h
  · next hop => cases h; exact hop ▸ .ccDec x now
  · cases h

theorem decodeXpt_selects {code : BitVec 2} {reason : BitVec 3} {now : Time} {i : Instr}
    (h : decodeXpt code reason now = .ok i) : Selects (.xpt code reason now) i := by
  unfold decodeXpt at h
  split at h
  · next hcode => cases h; exact hcode ▸ .evConn reason now
  split at h
  · next hcode => cases h; exact hcode ▸ .evDisc reason now
  · cases h

/-- A transfer of the environment selects what R99 says. -/
theorem decode_selects {x : Transfer} {i : Instr} (hx : x.external = true) (h : decode x = .ok i) :
    Selects x i := by
  cases x with
  | rx b now => cases h; exact .rxByte b now
  | host op y now => exact decodeHost_selects h
  | xpt code reason now => exact decodeXpt_selects h
  | timer now txOk answer => cases h; exact .sqTick now txOk answer
  | feed _ | descDec _ | descEnc _ _ | sub _ => cases hx

/-- A transfer that is none of the environment's does not select `SYS.RESET` (R100). -/
theorem external_of_decode_sysReset {x : Transfer} (h : decode x = .ok .sysReset) :
    x.external = true := by
  cases x with
  | rx _ _ | host _ _ _ | xpt _ _ _ | timer _ _ _ => rfl
  | feed k =>
    have hinstr : (selectFeed k).instr = .sysReset := Except.ok.inj h
    cases hsel : selectFeed k <;> rw [hsel] at hinstr <;> cases hinstr
  | descDec ch =>
    have hinstr : decodeDescDec ch = .sysReset := Except.ok.inj h
    unfold decodeDescDec at hinstr
    split at hinstr <;> cases hinstr
  | descEnc ch v =>
    have hinstr : decodeDescEnc ch v = .sysReset := Except.ok.inj h
    unfold decodeDescEnc at hinstr
    split at hinstr <;> cases hinstr
  | sub o => cases o <;> cases h

/-- Only the `HOST` op code 5 selects `SYS.RESET` (R99). -/
theorem decode_sysReset {x : Transfer} (h : decode x = .ok .sysReset) :
    ∃ y now, x = .host 0x05 y now := by
  cases decode_selects (external_of_decode_sysReset h) h with
  | sysReset y now => exact ⟨y, now, rfl⟩

/-! ### The streams (R44, R45, R79) -/

/-- The 16-bit sum is the sum over the naturals modulo 2^16 (R16, R81 (a)). -/
theorem sum16_toNat (p : List Byte) : (sum16 p).toNat = (p.map BitVec.toNat).sum % 65536 := by
  have hfold : ∀ (bs : List Byte) (c : BitVec 16),
      (bs.foldl (fun sum b => sum + b.setWidth 16) c).toNat =
        (c.toNat + (bs.map BitVec.toNat).sum) % 65536 := by
    intro bs
    induction bs with
    | nil => intro c; simpa using (Nat.mod_eq_of_lt c.isLt).symm
    | cons b bs ih =>
      intro c
      have hb := b.isLt
      rw [List.foldl_cons, ih, BitVec.toNat_add, BitVec.toNat_setWidth, List.map_cons, List.sum_cons]
      omega
  simpa [sum16] using hfold p 0

theorem crc_toNat (p : List Byte) : (crc p).toNat = checksum p := by
  have hneg : crc p = -sum16 p := (BitVec.neg_eq_not_add _).symm
  rw [hneg, BitVec.toNat_neg, sum16_toNat, checksum]

/-- The trailer holds the checksum, low byte first (R64, R87). -/
theorem trailer_eq (p : List Byte) :
    trailer p = [BitVec.ofNat 8 (checksum p), BitVec.ofNat 8 (checksum p / 256)] := by
  have hlow : lowByte (crc p) = BitVec.ofNat 8 (checksum p) := by
    apply BitVec.eq_of_toNat_eq
    rw [lowByte, BitVec.toNat_setWidth, crc_toNat, BitVec.toNat_ofNat]
  have hhigh : highByte (crc p) = BitVec.ofNat 8 (checksum p / 256) := by
    apply BitVec.eq_of_toNat_eq
    rw [highByte, BitVec.toNat_setWidth, BitVec.toNat_ushiftRight, crc_toNat, BitVec.toNat_ofNat,
      Nat.shiftRight_eq_div_pow]
  rw [trailer, hlow, hhigh]

/-- `FC.ENC` gives the wire frame of R87 (R123). -/
theorem fcEncode_eq_wireFrame (p : List Byte) : fcEncode p = wireFrame p := by
  rw [fcEncode_eq, trailer_eq]
  rfl

/-- A frame handed over is the whole frame of the command of an item that is in flight afterwards. -/
theorem Sent.tx_wireFrame {j : Fin 32} {s t : State} (h : Sent j s t) :
    t.cq[j].state = .waitConfirm ∧
      t.tx = s.tx ++ wireFrame (ccEncode s.cfg t.cq[j].cmd s.cfg.txMax) := by
  refine ⟨by rw [h.state_eq, if_pos rfl], ?_⟩
  rw [h.tx_eq, itemFrame, fcEncode_eq_wireFrame, h.cmd_eq]

/-- What is served keeps the environment's side and only appends: events, and at most one whole frame. -/
theorem Serves.streams {s t : State} (h : Serves s t) :
    t.cfg = s.cfg ∧ t.inbox = s.inbox ∧ (∃ es : List Event, t.ev = s.ev ++ es) ∧
    (t.tx = s.tx ∨ ∃ j : Fin 32, t.cq[j].state = .waitConfirm ∧
      t.tx = s.tx ++ wireFrame (ccEncode s.cfg t.cq[j].cmd s.cfg.txMax)) := by
  obtain ⟨u, hsu, rfl | ⟨j, hsent⟩⟩ := h
  · obtain ⟨hcfg, hin, ⟨es, hev⟩, htx⟩ := hsu.ext
    exact ⟨hcfg, hin, ⟨es, hev.symm⟩, .inl htx⟩
  · obtain ⟨hcfg, hin, ⟨es, hev⟩, htx⟩ := hsu.ext
    obtain ⟨hstate, hframe⟩ := hsent.tx_wireFrame
    rw [htx, hcfg] at hframe
    exact ⟨hsent.cfg_eq.trans hcfg, hsent.inbox_eq.trans hin, ⟨es, hsent.ev_eq.trans hev.symm⟩,
      .inr ⟨j, hstate, hframe⟩⟩

/-- No operation writes the parameters or the coming transfers (R12; log 1, 2). -/
theorem exec_keeps_environment {i : Instr} {s t : State} (h : exec i s = .next t) :
    t.cfg = s.cfg ∧ t.inbox = s.inbox := by
  by_cases hi : i = .sysReset
  · subst hi
    rw [execSysReset_eq h]
    exact ⟨rfl, rfl⟩
  · obtain ⟨hcfg, hin, _⟩ := (exec_serves h hi).streams
    exact ⟨hcfg, hin⟩

/-- Settles O57: every operation but `SYS.RESET` serves the queue, and only `HOST` op 5 selects that. -/
theorem streamsOnlyGrowByWholeFrames : Obligations.StreamsOnlyGrowByWholeFrames := by
  unfold Obligations.StreamsOnlyGrowByWholeFrames
  intro s t h
  obtain ⟨_, rfl⟩ | ⟨x, rest, hin, ⟨i, hdec, hexec⟩ | ⟨r, rfl⟩⟩ := step_cases h
  · exact ⟨rfl, fun _ => ⟨⟨[], (List.append_nil _).symm⟩, .inl rfl⟩⟩
  · refine ⟨(exec_keeps_environment hexec).1, fun hreset => ?_⟩
    have hi : i ≠ .sysReset := by
      rintro rfl
      obtain ⟨y, now, rfl⟩ := decode_sysReset hdec
      exact hreset y now rest hin
    obtain ⟨_, _, hev, htx⟩ := (exec_serves hexec hi).streams
    exact ⟨hev, htx⟩
  · exact ⟨rfl, fun _ => ⟨⟨[], (List.append_nil _).symm⟩, .inl rfl⟩⟩


/-! ### A step of the environment's (R86, R100) -/

/-- What the environment has yet to make stays what it can make. -/
theorem externalInbox_tail {s : State} {x : Transfer} {rest : List Transfer} (hs : externalInbox s)
    (hin : s.inbox = x :: rest) :
    x.external = true ∧ externalInbox { s with inbox := rest } := by
  unfold externalInbox at hs ⊢
  rw [hin] at hs
  exact ⟨hs x List.mem_cons_self, fun y hy => hs y (List.mem_cons_of_mem x hy)⟩

/-- A predicate that reads neither the inbox nor the result, and that every operation of a channel keeps,
is kept by every step that takes the environment's transfers. -/
theorem step_keeps {P : State → Prop} {s t : State} (hin : externalInbox s) (hs : P s)
    (hrest : ∀ rest, P { s with inbox := rest })
    (hrespond : ∀ (r : Resp) {u : State}, P u → P (respond r u))
    (hexec : ∀ {x : Transfer} {i : Instr} {u v : State}, Selects x i → P u → exec i u = .next v → P v)
    (h : step s = .next t) : externalInbox t ∧ P t := by
  obtain ⟨_, rfl⟩ | ⟨x, rest, hx, ⟨i, hdec, hrun⟩ | ⟨r, rfl⟩⟩ := step_cases h
  · exact ⟨hin, hs⟩
  · obtain ⟨hext, hin'⟩ := externalInbox_tail hin hx
    refine ⟨?_, hexec (decode_selects hext hdec) (hrest rest) hrun⟩
    unfold externalInbox at hin' ⊢
    rw [(exec_keeps_environment hrun).2]
    exact hin'
  · exact ⟨(externalInbox_tail hin hx).2, hrespond r (hrest rest)⟩

/-! ### The receiver (R49 (a), (b), R60, R61, R135) -/

/-- R49 (a), (b), and the canonical memory, together. -/
def receiverSound (s : State) : Prop := memoryOk s ∧ receiverOk s

/-- The fields `receiverSound` reads. -/
def receiverView (s : State) : Config × Memory × Nat × Bool × Bool :=
  (s.cfg, s.rxb, s.rxLen, s.rxEsc, s.rxDrop)

theorem receiverView_eq_iff {s t : State} : receiverView t = receiverView s ↔
    t.cfg = s.cfg ∧ t.rxb = s.rxb ∧ t.rxLen = s.rxLen ∧ t.rxEsc = s.rxEsc ∧ t.rxDrop = s.rxDrop := by
  simp only [receiverView, Prod.mk.injEq]

theorem receiverSound_congr {s t : State} (h : receiverView t = receiverView s)
    (hs : receiverSound s) : receiverSound t := by
  obtain ⟨hcfg, hrxb, hlen, hesc, hdrop⟩ := receiverView_eq_iff.1 h
  unfold receiverSound memoryOk receiverOk at hs ⊢
  rwa [hcfg, hrxb, hlen, hesc, hdrop]

theorem receiverSound_respond (r : Resp) {s : State} (hs : receiverSound s) :
    receiverSound (respond r s) := hs

theorem receiverSound_emit (e : Event) {s : State} (hs : receiverSound s) :
    receiverSound (emit e s) := hs

/-- An emptied receiver outside an escape is sound, whatever it held. -/
theorem receiverSound_emptied {s : State} (hs : memoryOk s) (hlen : s.rxLen = 0)
    (hesc : s.rxEsc = false) : receiverSound s := by
  refine ⟨hs, ?_, fun _ => ⟨hlen, hesc⟩⟩
  rw [hlen]
  exact Nat.zero_le _

/-- A receiver that is not dropping has only its length to keep. -/
theorem receiverSound_of_not_drop {s : State} (hs : memoryOk s) (hlen : s.rxLen ≤ s.cfg.rxCap)
    (hdrop : s.rxDrop = false) : receiverSound s :=
  ⟨hs, hlen, fun h => absurd (h.symm.trans hdrop) (by decide)⟩

/-- Storing a byte outside the dropping of a frame (R122): inside the buffer, or not at all. -/
theorem receiverSound_rxAppend {s : State} (v : Byte) (hs : receiverSound s)
    (hdrop : s.rxDrop = false) : receiverSound (rxAppend v s) := by
  obtain ⟨⟨hwf, hmem⟩, hlen, _⟩ := hs
  by_cases hroom : s.rxLen < s.cfg.rxCap
  · rw [rxAppend_room s v hroom]
    refine receiverSound_of_not_drop ⟨memWrite_wf hwf _ _, fun c hc => ?_⟩ hroom hdrop
    obtain hat | hold := memWrite_offsets _ _ _ c hc
    · exact hat ▸ hroom
    · exact hmem c hold
  · rw [rxAppend_full s v hroom]
    exact receiverSound_of_not_drop ⟨hwf, hmem⟩ hlen hdrop

/-- While a frame is dropped only the first two rows match (R93). -/
theorem selectFeed_dropping : ∀ (e : Bool) (b : Byte),
    selectFeed (feedWord true e b) = .resync e ∨ selectFeed (feedWord true e b) = .skip e b := by
  decide +kernel

theorem receiverSound_fedNothing {s t : State} (h : fedNothing s = .next t) (hs : receiverSound s) :
    receiverSound t := by
  cases h
  exact receiverSound_congr rfl hs

theorem receiverSound_feedEnd {s t : State} (h : execFeedEnd s = .next t) (hs : memoryOk s)
    (hdrop : s.rxDrop = false) : receiverSound t := by
  have hempty : receiverSound { s with rxLen := 0 } :=
    receiverSound_of_not_drop hs (Nat.zero_le _) hdrop
  unfold execFeedEnd at h
  split at h
  · split at h
    · split at h
      · cases h
        exact receiverSound_congr rfl hempty
      · exact receiverSound_fedNothing h hempty
    · cases h
  · exact receiverSound_fedNothing h hempty

/-- A step selected outside the dropping of a frame (R125). -/
theorem receiverSound_feedStep {sel : FeedSel} {s t : State} (hs : receiverSound s)
    (hdrop : s.rxDrop = false) (h : feedStep sel s = .next t) : receiverSound t := by
  have hmem := hs.1
  have hlen : s.rxLen ≤ s.cfg.rxCap := hs.2.1
  have hunesc : receiverSound { s with rxEsc := false } := receiverSound_of_not_drop hmem hlen hdrop
  cases sel with
  | resync e => exact receiverSound_fedNothing h (receiverSound_emptied hmem rfl rfl)
  | skip e b => exact receiverSound_fedNothing h hs
  | flush => exact receiverSound_fedNothing h (receiverSound_emptied hmem rfl rfl)
  | endFrame => exact receiverSound_feedEnd h hmem hdrop
  | esc e => exact receiverSound_fedNothing h (receiverSound_of_not_drop hmem hlen hdrop)
  | tmark => exact receiverSound_fedNothing h (receiverSound_rxAppend _ hunesc hdrop)
  | tesc => exact receiverSound_fedNothing h (receiverSound_rxAppend _ hunesc hdrop)
  | badesc b => exact receiverSound_fedNothing h (receiverSound_emptied hmem rfl rfl)
  | data b => exact receiverSound_fedNothing h (receiverSound_rxAppend b hs hdrop)

theorem receiverSound_feed {b : Byte} {s t : State} (hs : receiverSound s)
    (h : feed b s = .next t) : receiverSound t := by
  cases hdrop : s.rxDrop with
  | false => exact receiverSound_feedStep hs hdrop h
  | true =>
    rw [feed, feedKey, hdrop] at h
    obtain hsel | hsel := selectFeed_dropping s.rxEsc b <;> rw [hsel] at h
    · exact receiverSound_fedNothing h (receiverSound_emptied hs.1 rfl rfl)
    · exact receiverSound_fedNothing h hs

theorem hideGenerate_of_hideQueue {s t : State} (h : hideQueue t = hideQueue s) :
    hideGenerate t = hideGenerate s := by
  unfold hideGenerate hideEnqueue
  rw [h]

theorem receiverView_of_hideGenerate {s t : State} (h : hideGenerate t = hideGenerate s) :
    receiverView t = receiverView s := by
  have hview := congrArg receiverView h
  exact hview

theorem receiverView_of_hideDispatch {s t : State} (h : hideDispatch t = hideDispatch s) :
    receiverView t = receiverView s := by
  have hview := congrArg receiverView h
  exact hview

theorem receiverView_receive (p : List Byte) (now : Time) (s : State) :
    receiverView (receive p now s) = receiverView s := by
  obtain ⟨cmd, _, h⟩ | ⟨e, _, h⟩ := receive_cases s p now <;> rw [h]
  · exact receiverView_of_hideDispatch (dispatch_frame s cmd now)
  · rfl

theorem receiverView_enqCore (cmd : Command) (target : Option Dest) (now : Time) (s : State) :
    receiverView (enqCore cmd target now s).1 = receiverView s :=
  receiverView_of_hideGenerate (hideGenerate_of_hideEnqueue (enqCore_frame s cmd target now))

theorem receiverView_disarmTimer (s : State) : receiverView (disarmTimer s) = receiverView s := rfl

theorem receiverView_sweep (now : Time) (s : State) :
    receiverView (sweep now s) = receiverView s :=
  receiverView_of_hideGenerate (hideGenerate_of_hideQueue (sweep_frame s now))

theorem receiverView_generate (now : Time) (answer : Option Command) (s : State) :
    receiverView (generate now answer s) = receiverView s :=
  receiverView_of_hideGenerate (generate_frame s now answer)

theorem receiverView_sendOne (now : Time) (txOk : Bool) (s : State) :
    receiverView (sendOne now txOk s) = receiverView s := by
  obtain h | ⟨j, _, _, _, _, h⟩ := sendOne_cases s now txOk
  · rw [h]
  · rw [h, transmit_eq, receiverView_eq_iff]
    exact ⟨rfl, rfl, rfl, rfl, rfl⟩

theorem receiverView_rearm (now : Time) (s : State) :
    receiverView (rearm now s) = receiverView s := rfl

/-- A tick does not touch the receiver (R200). -/
theorem receiverView_tickBody (now : Time) (txOk : Bool) (answer : Option Command) (s : State) :
    receiverView (tickBody now txOk answer s) = receiverView s := by
  rw [tickBody, receiverView_rearm, receiverView_sendOne, receiverView_generate, receiverView_sweep,
    receiverView_disarmTimer]

/-- What kill leaves after its slot loop (R190). -/
theorem killAll_eq (s : State) : killAll s =
    { slots.foldl killSlot s with
      ev := (slots.foldl killSlot s).ev ++
        (pqContent s).map (fun r => Event.done (.bulk r) .disconnected none)
      pqCnt := 0, pqRd := 0, wrPtr := 0, sndPtr := 0 } := by
  rw [killAll, killRequests_eq]

/-- Kill does not touch the receiver (R190). -/
theorem receiverView_killAll (s : State) : receiverView (killAll s) = receiverView s := by
  have hslots : receiverView (slots.foldl killSlot s) = receiverView s :=
    receiverView_of_hideGenerate (hideGenerate_of_hideQueue (killFold_frame slots s).1)
  rw [receiverView_eq_iff] at hslots ⊢
  rw [killAll_eq]
  dsimp only
  exact hslots

/-- Every operation of a channel keeps the receiver sound. -/
theorem receiverSound_exec {x : Transfer} {i : Instr} {s t : State} (hx : Selects x i)
    (hs : receiverSound s) (h : exec i s = .next t) : receiverSound t := by
  cases hx with
  | rxByte b now =>
    obtain rfl | ⟨_, s1, hfeed, ht⟩ := execRxByte_cases h
    · exact receiverSound_respond _ hs
    · have hs1 := receiverSound_feed hs hfeed
      obtain rfl | ⟨p, rfl⟩ := ht
      · exact receiverSound_respond _ hs1
      · exact receiverSound_respond _ (receiverSound_congr (receiverView_receive p now s1) hs1)
  | sqEnq y now =>
    obtain ⟨_, rfl⟩ | ⟨_, target, r, ht⟩ := execSqEnq_cases h
    · exact receiverSound_respond _ hs
    · have hs1 := receiverSound_congr (receiverView_enqCore y.cmd target now s) hs
      obtain rfl | ⟨e, rfl⟩ := ht
      · exact receiverSound_respond _ hs1
      · exact receiverSound_respond _ (receiverSound_emit e hs1)
  | pqPush y now =>
    obtain ⟨r, rfl⟩ | ⟨_, _, rfl⟩ := execPqPush_cases h
    · exact receiverSound_respond _ hs
    · exact receiverSound_congr rfl hs
  | sysRdcsr _ _ | sysClrdiag _ _ | fcEnc _ _ | ccEnc _ _ =>
    obtain rfl := Host.Outcome.next.inj h
    exact receiverSound_congr rfl hs
  | ccDec y now =>
    obtain ⟨r, rfl⟩ := execCcDec_cases h
    exact receiverSound_respond _ hs
  | sysReset y now =>
    rw [execSysReset_eq h]
    exact receiverSound_emptied ⟨rfl, List.forall_mem_nil _⟩ rfl rfl
  | evConn reason now =>
    obtain rfl | rfl := execEvConn_cases h
    · exact receiverSound_respond _ hs
    · exact receiverSound_emptied hs.1 rfl rfl
  | evDisc reason now =>
    obtain rfl := Host.Outcome.next.inj h
    have hkill := receiverView_eq_iff.1 (receiverView_killAll (disarmTimer s))
    exact receiverSound_congr (receiverView_eq_iff.2 hkill) hs
  | sqTick now txOk answer =>
    obtain ⟨_, rfl⟩ | rfl := execSqTick_cases h
    · exact receiverSound_respond _ (receiverSound_congr (receiverView_tickBody now txOk answer s) hs)
    · exact receiverSound_respond _ hs

/-- Settles O51: only a receiver step stores bytes, below `RX_CAP`, and while a frame is dropped the only
steps are those that store nothing. -/
theorem receiverStaysInsideItsBuffer : Obligations.ReceiverStaysInsideItsBuffer := by
  unfold Obligations.ReceiverStaysInsideItsBuffer
  intro s t hin hmem hrec h
  exact step_keeps hin (P := receiverSound) ⟨hmem, hrec⟩ (fun _ => ⟨hmem, hrec⟩)
    receiverSound_respond receiverSound_exec h

/-! ### The session (R49 (e), (f), R234, R266) -/

/-- R49 (e), (f), the pointers of R234 and the timer of R266, together. -/
def sessionSound (s : State) : Prop := pendingOk s ∧ quietWhileDown s ∧ armedWhileUp s

/-- With the link up, the timer armed and at most 16 requests pending are all there is to keep. -/
theorem sessionSound_of_up {s : State} (hup : s.linkUp = true) (harmed : s.timerArmed = true)
    (hpq : s.pqCnt ≤ 16) : sessionSound s :=
  ⟨hpq, fun hdown => absurd (hup.symm.trans hdown) (by decide), fun _ => harmed⟩

/-- The fields that say how a session that is up stands. -/
def sessionView (s : State) : Bool × Bool × Nat := (s.linkUp, s.timerArmed, s.pqCnt)

/-- An operation that keeps link, timer and count keeps a session that is up sound. -/
theorem sessionSound_congr_up {s t : State} (h : sessionView t = sessionView s)
    (hup : s.linkUp = true) (hs : sessionSound s) : sessionSound t := by
  simp only [sessionView, Prod.mk.injEq] at h
  obtain ⟨hlink, htimer, hcnt⟩ := h
  obtain ⟨hpq, _, harmed⟩ := hs
  exact sessionSound_of_up (hlink.trans hup) (htimer.trans (harmed hup)) (hcnt.trans_le hpq)

/-- The state of a session that is down: nothing queued, nothing pending, pointers zero, timer disarmed. -/
theorem sessionSound_of_quiet {s : State} (hdown : s.linkUp = false)
    (hfree : ∀ i : Fin 32, s.cq[i].state = .init) (hcnt : s.pqCnt = 0) (htimer : s.timerArmed = false)
    (hwr : s.wrPtr = 0) (hsnd : s.sndPtr = 0) (hrd : s.pqRd = 0) : sessionSound s :=
  ⟨hcnt.trans_le (Nat.zero_le _), fun _ => ⟨hfree, hcnt, htimer, hwr, hsnd, hrd⟩,
    fun hup => absurd (hup.symm.trans hdown) (by decide)⟩

/-- An armed timer says that the link is up (R49 (f)). -/
theorem linkUp_of_timerArmed {s : State} (hs : sessionSound s) (harmed : s.timerArmed = true) :
    s.linkUp = true := by
  obtain ⟨_, hquiet, _⟩ := hs
  cases hlink : s.linkUp with
  | true => rfl
  | false =>
    obtain ⟨_, _, htimer, _⟩ := hquiet hlink
    exact absurd (harmed.symm.trans htimer) (by decide)

theorem sessionView_feed {b : Byte} {s t : State} (h : feed b s = .next t) :
    sessionView t = sessionView s := by
  rw [feed_sameButReceiver s h]
  rfl

theorem sessionView_of_hideDispatch {s t : State} (h : hideDispatch t = hideDispatch s) :
    sessionView t = sessionView s := by
  have hview := congrArg sessionView h
  exact hview

theorem linkUp_of_hideGenerate {s t : State} (h : hideGenerate t = hideGenerate s) :
    t.linkUp = s.linkUp := by
  have hlink := congrArg State.linkUp h
  exact hlink

theorem pqCnt_of_hideEnqueue {s t : State} (h : hideEnqueue t = hideEnqueue s) :
    t.pqCnt = s.pqCnt := by
  have hcnt := congrArg State.pqCnt h
  exact hcnt

theorem pqCnt_of_hideQueue {s t : State} (h : hideQueue t = hideQueue s) : t.pqCnt = s.pqCnt := by
  have hcnt := congrArg State.pqCnt h
  exact hcnt

theorem sessionView_receive (p : List Byte) (now : Time) (s : State) :
    sessionView (receive p now s) = sessionView s := by
  obtain ⟨cmd, _, h⟩ | ⟨e, _, h⟩ := receive_cases s p now <;> rw [h]
  · exact sessionView_of_hideDispatch (dispatch_frame s cmd now)
  · rfl

/-- An enqueue leaves the pending requests alone (R184 Flags). -/
theorem enqCore_pqCnt (cmd : Command) (target : Option Dest) (now : Time) (s : State) :
    (enqCore cmd target now s).1.pqCnt = s.pqCnt := pqCnt_of_hideEnqueue (enqCore_frame s cmd target now)

theorem enqCore_linkUp (cmd : Command) (target : Option Dest) (now : Time) (s : State) :
    (enqCore cmd target now s).1.linkUp = s.linkUp :=
  linkUp_of_hideGenerate (hideGenerate_of_hideEnqueue (enqCore_frame s cmd target now))

/-- An enqueue never disarms the timer (R185). -/
theorem enqCore_armed {cmd : Command} {target : Option Dest} {now : Time} {s : State}
    (h : s.timerArmed = true) : (enqCore cmd target now s).1.timerArmed = true := by
  obtain ⟨_, heq⟩ | ⟨j, _, _, heq⟩ | ⟨j, _, _, heq⟩ := enqCore_cases s cmd target now <;> rw [heq]
  · exact h
  · exact h
  · rw [enqWrite_eq]
    exact ite_eq_left_iff.2 (fun _ => h)

/-- Generation adds no pending request (R206). -/
theorem generate_pqCnt_le (now : Time) (answer : Option Command) (s : State) :
    (generate now answer s).pqCnt ≤ s.pqCnt := by
  have hpop : (pqPop s).pqCnt ≤ s.pqCnt := Nat.sub_le _ _
  obtain h | ⟨cmd, h⟩ | h := generate_cases now answer s
  · rw [h]
  · rw [h, enqCore_pqCnt]
  · obtain h' | ⟨cmd, h'⟩ := genBulk_cases now answer s
    · rw [h, h']
      exact hpop
    · rw [h, h', enqCore_pqCnt]
      exact hpop

theorem sendOne_linkUp (now : Time) (txOk : Bool) (s : State) :
    (sendOne now txOk s).linkUp = s.linkUp := by
  obtain h | ⟨j, _, _, _, _, h⟩ := sendOne_cases s now txOk
  · rw [h]
  · rw [h, transmit_eq]

theorem sendOne_pqCnt (now : Time) (txOk : Bool) (s : State) :
    (sendOne now txOk s).pqCnt = s.pqCnt := by
  obtain h | ⟨j, _, _, _, _, h⟩ := sendOne_cases s now txOk
  · rw [h]
  · rw [h, transmit_eq]

/-- A tick leaves the link as it is (R200). -/
theorem tickBody_linkUp (now : Time) (txOk : Bool) (answer : Option Command) (s : State) :
    (tickBody now txOk answer s).linkUp = s.linkUp := by
  have hgen := linkUp_of_hideGenerate (generate_frame (sweep now (disarmTimer s)) now answer)
  have hsweep := linkUp_of_hideGenerate (hideGenerate_of_hideQueue (sweep_frame (disarmTimer s) now))
  rw [tickBody, rearm, armTimer_linkUp, sendOne_linkUp, hgen, hsweep, disarmTimer_linkUp]

/-- A tick adds no pending request (R200). -/
theorem tickBody_pqCnt_le (now : Time) (txOk : Bool) (answer : Option Command) (s : State) :
    (tickBody now txOk answer s).pqCnt ≤ s.pqCnt := by
  have hsweep := pqCnt_of_hideQueue (sweep_frame (disarmTimer s) now)
  rw [tickBody, rearm, armTimer_pqCnt, sendOne_pqCnt]
  refine (generate_pqCnt_le now answer _).trans_eq ?_
  rw [hsweep, disarmTimer_pqCnt]

/-- "The next tick is armed" (R210, R266). -/
theorem tickBody_timerArmed (now : Time) (txOk : Bool) (answer : Option Command) (s : State) :
    (tickBody now txOk answer s).timerArmed = true := by
  rw [tickBody, rearm, armTimer_timerArmed]

theorem killSlot_free (s : State) (i : Fin 32) : (killSlot s i).cq[i].state = .init := by
  unfold killSlot
  split
  · next hfree => exact (free_iff s i).1 hfree
  · rw [setItemState_at, if_pos rfl]

/-- A turn of kill's slot loop leaves a free slot free (R190). -/
theorem killSlot_keeps_free {s : State} (j : Fin 32) {i : Fin 32} (hi : s.cq[i].state = .init) :
    (killSlot s j).cq[i].state = .init := by
  unfold killSlot
  split
  · exact hi
  · rw [setItemState_at, emitDone_eq]
    split
    · rfl
    · exact hi

/-- The slot loop of kill frees every slot it visits, and a free slot stays free (R190). -/
theorem killFold_free (l : List (Fin 32)) : ∀ {s : State} {i : Fin 32},
    i ∈ l ∨ s.cq[i].state = .init → (l.foldl killSlot s).cq[i].state = .init := by
  induction l with
  | nil =>
    intro s i hi
    obtain hmem | hfree := hi
    · exact absurd hmem List.not_mem_nil
    · exact hfree
  | cons j l ih =>
    intro s i hi
    rw [List.foldl_cons]
    apply ih
    obtain hmem | hfree := hi
    · obtain rfl | hl := List.mem_cons.1 hmem
      · exact .inr (killSlot_free s i)
      · exact .inl hl
    · exact .inr (killSlot_keeps_free j hfree)

/-- After kill every slot is free (R190). -/
theorem killAll_free (s : State) (i : Fin 32) : (killAll s).cq[i].state = .init := by
  have hslots := killFold_free slots (s := s) (i := i) (.inl (mem_slots i))
  rw [killAll_eq]
  dsimp only
  exact hslots

theorem killAll_timerArmed (s : State) : (killAll s).timerArmed = s.timerArmed := by
  have hslots := congrArg State.timerArmed (killFold_frame slots s).1
  rw [killAll_eq]
  dsimp only [hideQueue] at hslots ⊢
  exact hslots

theorem sessionSound_respond (r : Resp) {s : State} (hs : sessionSound s) :
    sessionSound (respond r s) := hs

theorem sessionSound_emit (e : Event) {s : State} (hs : sessionSound s) :
    sessionSound (emit e s) := hs

theorem sessionSound_enqCore {s : State} (cmd : Command) (target : Option Dest) (now : Time)
    (hup : s.linkUp = true) (hs : sessionSound s) : sessionSound (enqCore cmd target now s).1 := by
  obtain ⟨hpq, _, harmed⟩ := hs
  exact sessionSound_of_up ((enqCore_linkUp cmd target now s).trans hup) (enqCore_armed (harmed hup))
    ((enqCore_pqCnt cmd target now s).trans_le hpq)

theorem sessionSound_pqPut {s : State} (r : Nat) (hup : s.linkUp = true) (hroom : s.pqCnt ≠ pqCap)
    (hs : sessionSound s) : sessionSound (pqPut r s) := by
  obtain ⟨hpq, _, harmed⟩ := hs
  exact sessionSound_of_up hup (harmed hup) (Nat.lt_of_le_of_ne hpq hroom)

/-- A disconnected link has nothing queued and no timer (R236, R234). -/
theorem sessionSound_disconnect (s : State) :
    sessionSound { killAll (disarmTimer s) with linkUp := false } := by
  have hfree := killAll_free (disarmTimer s)
  have htimer := killAll_timerArmed (disarmTimer s)
  rw [disarmTimer_timerArmed] at htimer
  exact sessionSound_of_quiet rfl hfree rfl htimer rfl rfl rfl

/-- Every operation of a channel keeps the session sound. -/
theorem sessionSound_exec {x : Transfer} {i : Instr} {s t : State} (hx : Selects x i)
    (hs : sessionSound s) (h : exec i s = .next t) : sessionSound t := by
  cases hx with
  | rxByte b now =>
    obtain rfl | ⟨hup, s1, hfeed, ht⟩ := execRxByte_cases h
    · exact sessionSound_respond _ hs
    · have hview := sessionView_feed hfeed
      obtain rfl | ⟨p, rfl⟩ := ht
      · exact sessionSound_respond _ (sessionSound_congr_up hview hup hs)
      · exact sessionSound_respond _
          (sessionSound_congr_up ((sessionView_receive p now s1).trans hview) hup hs)
  | sqEnq y now =>
    obtain ⟨_, rfl⟩ | ⟨hup, target, r, ht⟩ := execSqEnq_cases h
    · exact sessionSound_respond _ hs
    · have hs1 := sessionSound_enqCore y.cmd target now hup hs
      obtain rfl | ⟨e, rfl⟩ := ht
      · exact sessionSound_respond _ hs1
      · exact sessionSound_respond _ (sessionSound_emit e hs1)
  | pqPush y now =>
    obtain ⟨r, rfl⟩ | ⟨hup, hroom, rfl⟩ := execPqPush_cases h
    · exact sessionSound_respond _ hs
    · exact sessionSound_respond _ (sessionSound_pqPut _ hup hroom hs)
  | sysRdcsr _ _ | sysClrdiag _ _ | fcEnc _ _ | ccEnc _ _ =>
    obtain rfl := Host.Outcome.next.inj h
    exact hs
  | ccDec y now =>
    obtain ⟨r, rfl⟩ := execCcDec_cases h
    exact sessionSound_respond _ hs
  | sysReset y now =>
    rw [execSysReset_eq h]
    exact sessionSound_of_quiet rfl cleared_reset rfl rfl rfl rfl rfl
  | evConn reason now =>
    obtain rfl | rfl := execEvConn_cases h
    · exact sessionSound_respond _ hs
    · exact sessionSound_of_up rfl rfl hs.1
  | evDisc reason now =>
    obtain rfl := Host.Outcome.next.inj h
    exact sessionSound_respond _ (sessionSound_emit _ (sessionSound_disconnect s))
  | sqTick now txOk answer =>
    obtain ⟨harmed, rfl⟩ | rfl := execSqTick_cases h
    · have hup := linkUp_of_timerArmed hs harmed
      obtain ⟨hpq, _, _⟩ := hs
      exact sessionSound_respond _ (sessionSound_of_up
        ((tickBody_linkUp now txOk answer s).trans hup) (tickBody_timerArmed now txOk answer s)
        ((tickBody_pqCnt_le now txOk answer s).trans hpq))
    · exact sessionSound_respond _ hs

/-- Settles O54: with the link down only `EV.CONN` does anything to the session, and with the link up every
operation keeps the timer armed but `EV.DISC` and `SYS.RESET`, which leave nothing queued. -/
theorem nothingIsQueuedWhileTheLinkIsDown : Obligations.NothingIsQueuedWhileTheLinkIsDown := by
  unfold Obligations.NothingIsQueuedWhileTheLinkIsDown
  intro s t hin hpq hquiet harmed h
  exact step_keeps hin (P := sessionSound) ⟨hpq, hquiet, harmed⟩ (fun _ => ⟨hpq, hquiet, harmed⟩)
    sessionSound_respond sessionSound_exec h

/-! ### The reset state and the codes (R48, R30, R252 to R254) -/

/-- Settles O45: `SYS.RESET` leaves the reset state but for the parameters and the coming transfers. -/
theorem resetLeavesTheValuesOfTheTable : Obligations.ResetLeavesTheValuesOfTheTable := by
  unfold Obligations.ResetLeavesTheValuesOfTheTable
  intro t ht
  have hreset : ∃ c inbox, t = { State.reset with cfg := c, inbox := inbox } := by
    obtain rfl | ⟨s, h⟩ := ht
    · exact ⟨t0, [], rfl⟩
    · exact ⟨s.cfg, s.inbox, execSysReset_eq h⟩
  obtain ⟨c, inbox, rfl⟩ := hreset
  exact ⟨rfl, rfl, rfl, rfl, rfl, cleared_reset, rfl, rfl, rfl, rfl, rfl, rfl, rfl, rfl, rfl, rfl, rfl, rfl,
    fun s => ⟨_, rfl, rfl⟩⟩

/-- Settles O49, table by table. -/
theorem codesAreThoseOfTheTables : Obligations.CodesAreThoseOfTheTables := by
  unfold Obligations.CodesAreThoseOfTheTables
  exact ⟨rfl, rfl, rfl, rfl, rfl⟩

/-- Settles O50: nothing is queued, so every invariant of the queue holds, and receiver and session are
empty. -/
theorem resetStateIsSound : Obligations.ResetStateIsSound := by
  unfold Obligations.ResetStateIsSound
  have hconfig : configOk State.reset.cfg = true := by decide
  have hreceiver : receiverSound State.reset :=
    receiverSound_emptied ⟨rfl, List.forall_mem_nil _⟩ rfl rfl
  have hsession : sessionSound State.reset :=
    sessionSound_of_quiet rfl cleared_reset rfl rfl rfl rfl rfl
  obtain ⟨hmemory, hrec⟩ := hreceiver
  obtain ⟨hpending, hquiet, harmed⟩ := hsession
  exact ⟨hconfig, List.forall_mem_nil _, hmemory, hrec, windowOk_invariant.cleared cleared_reset,
    seqUnique_invariant.cleared cleared_reset, hpending, hquiet, harmed,
    retriesOk_invariant.cleared cleared_reset, encodableOk_invariant.cleared cleared_reset⟩

end Sys2Proof.Proofs
end

section
/-! Proofs of the family 20_memory: what a step runs, what the end of a frame accepts, and what the receiver
forgets at a marker. -/

namespace Sys2Proof.Proofs

open Sys2Proof Sys2Proof.Machine Sys2Proof.Safety

/-! ### What a transfer decodes to (R93, R95, R99, R100) -/

/-- The operations of R99's rows have no operand that could belong to another row. -/
theorem Selects.wellFormed {x : Transfer} {i : Instr} (h : Selects x i) : i.wellFormed = true := by
  cases h <;> rfl

/-- A byte is the operand of a receiver row only where no earlier row took its word (R93, all 1024 words). -/
theorem selectFeed_wellFormed : ∀ k : BitVec 10, (selectFeed k).instr.wellFormed = true := by
  decide +kernel

/-- A character that denotes no field type is none of the ten (R95, R96). -/
theorem not_mem_descriptorCodes {ch : Byte} (h : fieldKind ch = none) : ch ∉ descriptorCodes := by
  have hlisted : ∀ c ∈ descriptorCodes, fieldKind c ≠ none := by decide
  exact fun hch => hlisted ch hch h

theorem decodeDescDec_wellFormed (ch : Byte) : (decodeDescDec ch).wellFormed = true := by
  unfold decodeDescDec
  cases hkind : fieldKind ch with
  | none => simpa [Instr.wellFormed] using not_mem_descriptorCodes hkind
  | some kind =>
    cases kind with
    | scalar w | rep w => cases w <;> rfl
    | str | raw => rfl

theorem decodeDescEnc_wellFormed (ch : Byte) (v : FieldVal) : (decodeDescEnc ch v).wellFormed = true := by
  unfold decodeDescEnc
  cases hkind : fieldKind ch with
  | none => simpa [Instr.wellFormed] using not_mem_descriptorCodes hkind
  | some kind =>
    cases kind with
    | scalar w | rep w => cases w <;> rfl
    | str | raw => rfl

theorem subOp_wellFormed (o : SubOp) : o.instr.wellFormed = true := by
  cases o <;> rfl

theorem decode_wellFormed {x : Transfer} {i : Instr} (h : decode x = .ok i) : i.wellFormed = true := by
  cases x with
  | rx _ _ | host _ _ _ | xpt _ _ _ | timer _ _ _ => exact (decode_selects rfl h).wellFormed
  | feed k => cases h; exact selectFeed_wellFormed k
  | descDec ch => cases h; exact decodeDescDec_wellFormed ch
  | descEnc ch v => cases h; exact decodeDescEnc_wellFormed ch v
  | sub o => cases h; exact subOp_wellFormed o

/-- A transfer that selects an operation is taken, and the operation performed (R72, R86). -/
theorem step_of_decode {s : State} {x : Transfer} {rest : List Transfer} {i : Instr}
    (hcfg : configOk s.cfg = true) (hin : s.inbox = x :: rest) (hdec : decode x = .ok i) :
    step s = exec i { s with inbox := rest } := by
  rw [step, if_pos hcfg, hin]
  dsimp only
  rw [hdec]

/-- Settles O1, channel by channel: the operand of a row is always one that selects that row. -/
theorem stepRunsTheDecodedOperation : Obligations.StepRunsTheDecodedOperation := by
  unfold Obligations.StepRunsTheDecodedOperation
  exact ⟨fun _ _ _ _ hcfg hin hdec _ => step_of_decode hcfg hin hdec,
    fun _ _ hdec => decode_wellFormed hdec⟩

/-! ### The acceptance test of a frame (R82, R127) -/

theorem memReadRange_zero_eq_map (m : Memory) (n : Nat) :
    memReadRange m 0 n = (List.range n).map (memRead m) := by
  induction n with
  | zero => rfl
  | succ n ih => rw [memReadRange_snoc, ih, List.range_succ, List.map_append, Nat.zero_add]; rfl

theorem frameContent_eq_rxBytes (s : State) : frameContent s = rxBytes s (s.rxLen - 2) :=
  memReadRange_zero_eq_map s.rxb _

theorem rxTrailer_lt (s : State) : rxTrailer s < 65536 := by
  have hhi := (memRead s.rxb (s.rxLen - 1)).isLt
  have hlo := (memRead s.rxb (s.rxLen - 2)).isLt
  unfold rxTrailer
  omega

theorem frameTrailer_toNat (s : State) : (frameTrailer s).toNat = rxTrailer s := by
  rw [frameTrailer, word16, BitVec.toNat_ofNat]
  exact Nat.mod_eq_of_lt (rxTrailer_lt s)

/-- The machine's test on 16-bit words is R82's equality. -/
theorem crc_eq_frameTrailer_iff (s : State) :
    crc (frameContent s) = frameTrailer s ↔ checksum (rxBytes s (s.rxLen - 2)) = rxTrailer s := by
  rw [← BitVec.toNat_inj, crc_toNat, frameTrailer_toNat, frameContent_eq_rxBytes]

/-- A 16-bit word is the checksum of bytes exactly when it cancels their sum (R15, R82). -/
theorem checksum_eq_iff {p : List Byte} {n : Nat} (hn : n < 65536) :
    checksum p = n ↔ ((p.map BitVec.toNat).sum + n) % 65536 = 0 := by
  unfold checksum
  omega

/-- Everything `FEED.END` does within the buffer: it empties it, and delivers the content of a good frame
or nothing (R127). -/
theorem execFeedEnd_within {s : State} (hcap : s.rxLen ≤ s.cfg.rxCap) :
    ∃ r, execFeedEnd s = .next (respond (.fed r) { s with rxLen := 0 }) ∧
      ∀ p, r = some p ↔ frameGood s ∧ p = rxBytes s (s.rxLen - 2) := by
  by_cases hgood : frameGood s
  · refine ⟨some (rxBytes s (s.rxLen - 2)), ?_, fun p => by simp [hgood, eq_comm]⟩
    obtain ⟨h2, hsum⟩ := hgood
    rw [execFeedEnd_good h2 hcap ((crc_eq_frameTrailer_iff s).2 hsum), frameContent_eq_rxBytes]
  · refine ⟨none, ?_, fun p => by simp [hgood]⟩
    by_cases h2 : 2 ≤ s.rxLen
    · have hcrc : crc (frameContent s) ≠ frameTrailer s :=
        fun h => hgood ⟨h2, (crc_eq_frameTrailer_iff s).1 h⟩
      rw [execFeedEnd, if_pos h2, if_pos hcap, if_neg hcrc]
      rfl
    · exact execFeedEnd_short (by omega)

/-- Every receiver step but `FEED.END` ends by delivering nothing (R125). -/
theorem feedStep_fedNothing {sel : FeedSel} (hsel : sel ≠ .endFrame) (s : State) :
    ∃ s1, feedStep sel s = fedNothing s1 := by
  cases sel with
  | endFrame => exact absurd rfl hsel
  | resync _ | skip _ _ | flush | esc _ | tmark | tesc | badesc _ | data _ => exact ⟨_, rfl⟩

/-- Only a marker outside an escape, no frame being dropped, ends a frame (R93). -/
theorem selectFeed_eq_endFrame_iff : ∀ (drop esc : Bool) (b : Byte),
    selectFeed (feedWord drop esc b) = .endFrame ↔ b = MARK ∧ drop = false ∧ esc = false := by
  decide +kernel

/-- A receiver step within the buffer goes on, and delivers the content of a good frame that ends there or
nothing (R82, R125). -/
theorem feed_within {s : State} (b : Byte) (hcap : s.rxLen ≤ s.cfg.rxCap) :
    ∃ t, feed b s = .next t ∧ ∀ p, delivered t = some p ↔
      b = MARK ∧ s.rxDrop = false ∧ s.rxEsc = false ∧ frameGood s ∧ p = rxBytes s (s.rxLen - 2) := by
  have hends := selectFeed_eq_endFrame_iff s.rxDrop s.rxEsc b
  by_cases hsel : selectFeed (feedKey s b) = .endFrame
  · obtain ⟨hb, hdrop, hesc⟩ := hends.1 hsel
    obtain ⟨r, hend, hr⟩ := execFeedEnd_within hcap
    refine ⟨respond (.fed r) { s with rxLen := 0 }, by rw [feed, hsel]; exact hend,
      fun p => (hr p).trans ?_⟩
    simp only [hb, hdrop, hesc, true_and]
  · obtain ⟨s1, hnone⟩ := feedStep_fedNothing hsel s
    refine ⟨_, hnone, fun p => iff_of_false (fun h => nomatch h) ?_⟩
    rintro ⟨hb, hdrop, hesc, -⟩
    exact hsel (hends.2 ⟨hb, hdrop, hesc⟩)

/-- Settles O12: what `feed` delivers is decided by `FEED.END` alone, whose test is R82's equality. -/
theorem acceptedFramesSatisfyTheSumEquation : Obligations.AcceptedFramesSatisfyTheSumEquation := by
  unfold Obligations.AcceptedFramesSatisfyTheSumEquation
  refine ⟨fun s t b p hcap h => ?_, fun s => checksum_eq_iff (rxTrailer_lt s), fun s b hcap => ?_⟩
  · obtain ⟨u, hu, hdel⟩ := feed_within b hcap
    obtain rfl : u = t := Host.Outcome.next.inj (hu.symm.trans h)
    exact hdel p
  · obtain ⟨t, ht, -⟩ := feed_within b hcap
    exact ⟨t, ht⟩

/-! ### A marker empties the receiver (R77) -/

theorem selectFeed_mark_drop : ∀ e : Bool, selectFeed (feedWord true e MARK) = .resync e := by decide

theorem selectFeed_mark_esc : selectFeed (feedWord false true MARK) = .flush := by decide

/-- A `FEED.END` that goes on empties the buffer and changes nothing else but the result (R127). -/
theorem execFeedEnd_next {s t : State} (h : execFeedEnd s = .next t) :
    ∃ r, t = respond (.fed r) { s with rxLen := 0 } := by
  by_cases hcap : s.rxLen ≤ s.cfg.rxCap
  · obtain ⟨r, hend, -⟩ := execFeedEnd_within hcap
    exact ⟨r, Host.Outcome.next.inj (h.symm.trans hend)⟩
  · by_cases h2 : 2 ≤ s.rxLen
    · rw [execFeedEnd_beyond h2 (by omega)] at h
      cases h
    · rw [execFeedEnd_short (by omega)] at h
      exact ⟨none, (Host.Outcome.next.inj h).symm⟩

/-- A marker empties the receiver on each of its three rows: `FEED.RESYNC`, `FEED.FLUSH` and `FEED.END`
(R126, R127, R133). -/
theorem feed_mark_next {s t : State} (h : feed MARK s = .next t) :
    ∃ r, t = { s with rxLen := 0, rxEsc := false, rxDrop := false, resp := .fed r } := by
  cases hdrop : s.rxDrop with
  | true =>
    rw [feed_of_select hdrop rfl (selectFeed_mark_drop s.rxEsc)] at h
    exact ⟨none, (Host.Outcome.next.inj h).symm⟩
  | false =>
    cases hesc : s.rxEsc with
    | true =>
      rw [feed_of_select hdrop hesc selectFeed_mark_esc] at h
      exact ⟨none, by simp [← Host.Outcome.next.inj h, respond, hdrop]⟩
    | false =>
      rw [feed_mark hdrop hesc] at h
      obtain ⟨r, rfl⟩ := execFeedEnd_next h
      exact ⟨r, by simp [respond, hdrop, hesc]⟩

/-! ### Two receivers that behave alike from here on (R77) -/

/-- Two receivers within their buffers agree on everything a later byte can bring to light: the capacity,
the flags, the length and the bytes below it. What lies past the length may differ. -/
structure SameReception (s s' : State) : Prop where
  cap : s'.cfg.rxCap = s.cfg.rxCap
  len : s'.rxLen = s.rxLen
  esc : s'.rxEsc = s.rxEsc
  drop : s'.rxDrop = s.rxDrop
  fits : s.rxLen ≤ s.cfg.rxCap
  wf : s.rxb.wf = true
  wf' : s'.rxb.wf = true
  bytes : ∀ a, a < s.rxLen → memRead s'.rxb a = memRead s.rxb a

/-- Both outcomes go on, with the same delivery, to receivers that behave alike. -/
def FedAlike (o o' : Host.Outcome State Fault Refusal) : Prop :=
  ∃ t t', o = .next t ∧ o' = .next t' ∧ SameReception t t' ∧ delivered t' = delivered t

namespace SameReception

variable {s s' : State}

theorem of_empty (hcap : s'.cfg.rxCap = s.cfg.rxCap) (hwf : s.rxb.wf = true) (hwf' : s'.rxb.wf = true)
    (hlen : s.rxLen = 0) (hlen' : s'.rxLen = 0) (hesc : s'.rxEsc = s.rxEsc)
    (hdrop : s'.rxDrop = s.rxDrop) : SameReception s s' :=
  ⟨hcap, hlen'.trans hlen.symm, hesc, hdrop, by omega, hwf, hwf', fun a ha => by omega⟩

theorem setEsc (h : SameReception s s') (e : Bool) :
    SameReception { s with rxEsc := e } { s' with rxEsc := e } :=
  { h with esc := rfl }

theorem respond (h : SameReception s s') (r r' : Resp) :
    SameReception (Machine.respond r s) (Machine.respond r' s') :=
  { h with cap := h.cap }

/-- The byte stored joins the bytes both hold, or neither has room for it (R122). -/
theorem rxAppend (h : SameReception s s') (v : Byte) :
    SameReception (Machine.rxAppend v s) (Machine.rxAppend v s') := by
  by_cases hroom : s.rxLen < s.cfg.rxCap
  · have hroom' : s'.rxLen < s'.cfg.rxCap := by rw [h.len, h.cap]; exact hroom
    rw [rxAppend_room s v hroom, rxAppend_room s' v hroom']
    refine { h with
      len := congrArg (· + 1) h.len, fits := hroom, wf := memWrite_wf h.wf _ _,
      wf' := memWrite_wf h.wf' _ _, bytes := fun a ha => ?_ }
    by_cases hat : a = s.rxLen
    · subst hat
      rw [h.len, memRead_memWrite_same h.wf, memRead_memWrite_same h.wf']
    · rw [h.len, memRead_memWrite_other _ _ _ hat, memRead_memWrite_other _ _ _ hat]
      exact h.bytes a (Nat.lt_of_le_of_ne (Nat.le_of_lt_succ ha) hat)
  · have hroom' : ¬ s'.rxLen < s'.cfg.rxCap := by rw [h.len, h.cap]; exact hroom
    rw [rxAppend_full s v hroom, rxAppend_full s' v hroom']
    exact { h with cap := h.cap }

theorem rxBytes_eq (h : SameReception s s') {n : Nat} (hn : n ≤ s.rxLen) : rxBytes s' n = rxBytes s n :=
  List.map_congr_left fun a ha => h.bytes a (Nat.lt_of_lt_of_le (List.mem_range.1 ha) hn)

theorem frameGood_iff (h : SameReception s s') : frameGood s' ↔ frameGood s := by
  unfold frameGood
  rw [h.len, h.rxBytes_eq (Nat.sub_le _ _)]
  refine and_congr_right fun h2 => ?_
  rw [rxTrailer, rxTrailer, h.len, h.bytes _ (by omega), h.bytes _ (by omega)]

theorem fedNothing (h : SameReception s s') : FedAlike (Machine.fedNothing s) (Machine.fedNothing s') :=
  ⟨_, _, rfl, rfl, h.respond _ _, rfl⟩

/-- A frame ends alike in both: the test and the content read bytes below the length only (R127). -/
theorem feedEnd (h : SameReception s s') : FedAlike (execFeedEnd s) (execFeedEnd s') := by
  obtain ⟨r, hend, hr⟩ := execFeedEnd_within h.fits
  obtain ⟨r', hend', hr'⟩ := execFeedEnd_within (s := s') (by rw [h.len, h.cap]; exact h.fits)
  have hsame : r' = r := Option.ext fun p => by
    rw [hr, hr', h.frameGood_iff, h.len, h.rxBytes_eq (Nat.sub_le _ _)]
  exact ⟨_, _, hend, hend', of_empty h.cap h.wf h.wf' rfl rfl h.esc h.drop, hsame⟩

theorem feedStep (h : SameReception s s') (sel : FeedSel) :
    FedAlike (Machine.feedStep sel s) (Machine.feedStep sel s') := by
  cases sel with
  | resync _ | badesc _ => exact fedNothing (of_empty h.cap h.wf h.wf' rfl rfl rfl rfl)
  | flush => exact fedNothing (of_empty h.cap h.wf h.wf' rfl rfl rfl h.drop)
  | skip _ _ => exact h.fedNothing
  | endFrame => exact h.feedEnd
  | esc _ => exact (h.setEsc true).fedNothing
  | tmark | tesc => exact ((h.setEsc false).rxAppend _).fedNothing
  | data b => exact (h.rxAppend b).fedNothing

/-- The flags select the same row in both (R93, R125). -/
theorem feed (h : SameReception s s') (b : Byte) : FedAlike (Machine.feed b s) (Machine.feed b s') := by
  rw [Machine.feed, Machine.feed, feedKey, feedKey, h.esc, h.drop]
  exact h.feedStep _

/-- Whatever bytes follow, both deliver the same byte by byte. -/
theorem feedAll (bs : List Byte) : ∀ {s s' : State}, SameReception s s' →
    ∃ u u' rs, Machine.feedAll bs s = some (u, rs) ∧ Machine.feedAll bs s' = some (u', rs) := by
  induction bs with
  | nil => exact fun {s s'} _ => ⟨s, s', [], rfl, rfl⟩
  | cons b bs ih =>
    intro s s' h
    obtain ⟨t, t', ht, ht', hsame, hdel⟩ := h.feed b
    obtain ⟨u, u', rs, hu, hu'⟩ := ih hsame
    refine ⟨u, u', delivered t :: rs, ?_, ?_⟩
    · simp only [Machine.feedAll, ht, hu]
    · simp only [Machine.feedAll, ht', hu', hdel]

end SameReception

/-- Settles O15: a marker leaves both receivers empty outside an escape, so that they behave alike. -/
theorem nothingBeforeAMarkerInfluencesWhatFollows :
    Obligations.NothingBeforeAMarkerInfluencesWhatFollows := by
  unfold Obligations.NothingBeforeAMarkerInfluencesWhatFollows
  refine ⟨fun s hcap => ?_, fun s s' t t' bs hcap hwf hwf' ht ht' => ?_⟩
  · obtain ⟨t, ht, -⟩ := feed_within MARK hcap
    obtain ⟨r, rfl⟩ := feed_mark_next ht
    exact ⟨r, ht⟩
  · obtain ⟨r, rfl⟩ := feed_mark_next ht
    obtain ⟨r', rfl⟩ := feed_mark_next ht'
    exact SameReception.feedAll bs (.of_empty hcap.symm hwf hwf' rfl rfl rfl rfl)

end Sys2Proof.Proofs
end

section
/-! Proofs of the family 30_encoding: which operation a word, a character or a code selects, that the decoder
undoes the encoder, and where the marker stands in a frame. -/

namespace Sys2Proof.Proofs

open Sys2Proof Sys2Proof.Machine Sys2Proof.Safety

/-! ### The selecting word and its parts (R93) -/

theorem feedWord_toNat (drop esc : Bool) (b : Byte) :
    (feedWord drop esc b).toNat = 512 * drop.toNat + 256 * esc.toNat + b.toNat := by
  have hdrop := drop.toNat_le
  have hesc := esc.toNat_le
  have hb := b.isLt
  rw [feedWord, BitVec.toNat_ofNat]
  omega

@[simp] theorem keyDrop_feedWord (drop esc : Bool) (b : Byte) : keyDrop (feedWord drop esc b) = drop := by
  have hesc := esc.toNat_le
  have hb := b.isLt
  rw [keyDrop, BitVec.getLsbD, feedWord_toNat, Nat.testBit_eq_decide_div_mod_eq]
  cases drop with
  | false => exact decide_eq_false (by rw [Bool.toNat_false]; omega)
  | true => exact decide_eq_true (by rw [Bool.toNat_true]; omega)

@[simp] theorem keyEsc_feedWord (drop esc : Bool) (b : Byte) : keyEsc (feedWord drop esc b) = esc := by
  have hb := b.isLt
  rw [keyEsc, BitVec.getLsbD, feedWord_toNat, Nat.testBit_eq_decide_div_mod_eq]
  cases esc with
  | false => exact decide_eq_false (by rw [Bool.toNat_false]; omega)
  | true => exact decide_eq_true (by rw [Bool.toNat_true]; omega)

@[simp] theorem keyByte_feedWord (drop esc : Bool) (b : Byte) : keyByte (feedWord drop esc b) = b := by
  have hb := b.isLt
  apply BitVec.eq_of_toNat_eq
  rw [keyByte, BitVec.toNat_setWidth, feedWord_toNat]
  omega

/-! ### The rows of R93 as tests `k & mask = match` -/

section Masks

variable {n : Nat} {k mask value mask' value' : BitVec n}

/-- A word that fits a row fits every row that tests fewer of the same bits. -/
theorem fits_of_fits (h : k &&& mask = value) (hsub : mask &&& mask' = mask') :
    k &&& mask' = value &&& mask' := by
  rw [← h, BitVec.and_assoc, hsub]

/-- Two rows that ask for different values of the bits both test fit no common word. -/
theorem not_fits_of_clash (h : k &&& mask = value) (hclash : value &&& mask' ≠ value' &&& mask) :
    k &&& mask' ≠ value' := by
  intro h'
  apply hclash
  rw [← h, ← h', BitVec.and_assoc, BitVec.and_assoc, BitVec.and_comm mask]

end Masks

section Rows

variable {k : BitVec 10}

theorem selectFeed_resync (h : k &&& 0x2FF = 0x2C0) : selectFeed k = .resync (keyEsc k) := by
  rw [selectFeed, if_pos h]

theorem selectFeed_skip (hresync : k &&& 0x2FF ≠ 0x2C0) (h : k &&& 0x200 = 0x200) :
    selectFeed k = .skip (keyEsc k) (keyByte k) := by
  rw [selectFeed, if_neg hresync, if_pos h]

/-- With `rx_drop` clear the first two rows do not match, and the other seven are left. -/
theorem selectFeed_keeping (h : k &&& 0x200 ≠ 0x200) :
    selectFeed k =
      if k &&& 0x3FF = 0x1C0 then .flush
      else if k &&& 0x3FF = 0x0C0 then .endFrame
      else if k &&& 0x2FF = 0x0DB then .esc (keyEsc k)
      else if k &&& 0x3FF = 0x1DC then .tmark
      else if k &&& 0x3FF = 0x1DD then .tesc
      else if k &&& 0x300 = 0x100 then .badesc (keyByte k)
      else .data (keyByte k) := by
  have hresync : k &&& 0x2FF ≠ 0x2C0 := fun hfit => h (fits_of_fits hfit (by decide))
  rw [selectFeed, if_neg hresync, if_neg h]

variable (hdrop : k &&& 0x200 ≠ 0x200)
include hdrop

theorem selectFeed_flush_row (h : k &&& 0x3FF = 0x1C0) : selectFeed k = .flush := by
  rw [selectFeed_keeping hdrop, if_pos h]

theorem selectFeed_end_row (h : k &&& 0x3FF = 0x0C0) : selectFeed k = .endFrame := by
  rw [selectFeed_keeping hdrop, if_neg (not_fits_of_clash h (by decide)), if_pos h]

theorem selectFeed_esc_row (h : k &&& 0x2FF = 0x0DB) : selectFeed k = .esc (keyEsc k) := by
  rw [selectFeed_keeping hdrop, if_neg (not_fits_of_clash h (by decide)),
    if_neg (not_fits_of_clash h (by decide)), if_pos h]

theorem selectFeed_tmark_row (h : k &&& 0x3FF = 0x1DC) : selectFeed k = .tmark := by
  rw [selectFeed_keeping hdrop, if_neg (not_fits_of_clash h (by decide)),
    if_neg (not_fits_of_clash h (by decide)), if_neg (not_fits_of_clash h (by decide)), if_pos h]

theorem selectFeed_tesc_row (h : k &&& 0x3FF = 0x1DD) : selectFeed k = .tesc := by
  rw [selectFeed_keeping hdrop, if_neg (not_fits_of_clash h (by decide)),
    if_neg (not_fits_of_clash h (by decide)), if_neg (not_fits_of_clash h (by decide)),
    if_neg (not_fits_of_clash h (by decide)), if_pos h]

theorem selectFeed_badesc_row (hlisted : k &&& 0x3FF ∉ [0x1C0, 0x1DC, 0x1DD])
    (hesc : k &&& 0x2FF ≠ 0x0DB) (h : k &&& 0x300 = 0x100) : selectFeed k = .badesc (keyByte k) := by
  simp only [List.mem_cons, List.not_mem_nil, or_false, not_or] at hlisted
  obtain ⟨hflush, htmark, htesc⟩ := hlisted
  rw [selectFeed_keeping hdrop, if_neg hflush, if_neg (not_fits_of_clash h (by decide)), if_neg hesc,
    if_neg htmark, if_neg htesc, if_pos h]

theorem selectFeed_data_row (hend : k &&& 0x3FF ≠ 0x0C0) (hesc : k &&& 0x2FF ≠ 0x0DB)
    (h : k &&& 0x300 = 0x000) : selectFeed k = .data (keyByte k) := by
  rw [selectFeed_keeping hdrop, if_neg (not_fits_of_clash h (by decide)), if_neg hend, if_neg hesc,
    if_neg (not_fits_of_clash h (by decide)), if_neg (not_fits_of_clash h (by decide)),
    if_neg (not_fits_of_clash h (by decide))]

end Rows

/-- The bits 9 and 8 have four values, and each fits the second, the eighth or the last row. -/
theorem exists_row : ∀ k : BitVec 10,
    k &&& 0x200 = 0x200 ∨ k &&& 0x300 = 0x100 ∨ k &&& 0x300 = 0x000 := by
  decide +kernel

/-- Settles O4: two rows that could both fit a word are told apart by the earlier row's negation, any other two
ask for different values of a bit both test. -/
theorem receiverStepIsTheFirstMatchingRow : Obligations.ReceiverStepIsTheFirstMatchingRow := by
  unfold Obligations.ReceiverStepIsTheFirstMatchingRow
  exact ⟨fun drop esc b =>
      ⟨keyDrop_feedWord drop esc b, keyEsc_feedWord drop esc b, keyByte_feedWord drop esc b⟩,
    fun _ _ => rfl,
    fun _ => ⟨selectFeed_resync, selectFeed_skip, fun hdrop =>
      ⟨selectFeed_flush_row hdrop, selectFeed_end_row hdrop, selectFeed_esc_row hdrop,
        selectFeed_tmark_row hdrop, selectFeed_tesc_row hdrop, selectFeed_badesc_row hdrop,
        selectFeed_data_row hdrop⟩⟩,
    exists_row⟩

/-! ### Which step the flags and a byte select (R93) -/

/-- While a frame is dropped every byte but the marker is skipped. -/
theorem selectFeed_dropped : ∀ (esc : Bool) (b : Byte), b ≠ MARK →
    selectFeed (feedWord true esc b) = .skip esc b := by decide +kernel

/-- The escape marker is taken whether an escape is pending or not. -/
theorem selectFeed_escb : ∀ esc : Bool, selectFeed (feedWord false esc ESCB) = .esc esc := by decide

/-- After an escape every byte but the two special ones and their substitutes is a bad escape. -/
theorem selectFeed_badesc : ∀ b : Byte, b ≠ MARK → b ≠ ESCB → b ≠ T_MARK → b ≠ T_ESC →
    selectFeed (feedWord false true b) = .badesc b := by decide +kernel

theorem decode_feed {k : BitVec 10} {sel : FeedSel} (h : selectFeed k = sel) :
    decode (.feed k) = .ok sel.instr := by
  rw [decode, h]

/-! ### Descriptor characters and field types (R95, R96) -/

/-- One row of R95's table: where it answers, the character is its field type's, and else the later rows say. -/
theorem kindCode_of_row {ch c : Byte} {k kind : FieldKind} {later : Option FieldKind} (hrow : kindCode k = c)
    (hlater : later = some kind → kindCode kind = ch) :
    (if ch = c then some k else later) = some kind → kindCode kind = ch := by
  by_cases hch : ch = c
  · rw [if_pos hch]
    rintro ⟨⟩
    exact hrow.trans hch.symm
  · rw [if_neg hch]
    exact hlater

theorem kindCode_of_fieldKind {ch : Byte} {kind : FieldKind} :
    fieldKind ch = some kind → kindCode kind = ch := by
  rw [fieldKind]
  iterate 10 refine kindCode_of_row rfl ?_
  exact nofun

theorem kindCode_mem_descriptorCodes (kind : FieldKind) : kindCode kind ∈ descriptorCodes := by
  cases kind with
  | scalar w | rep w => cases w <;> decide
  | str | raw => decide

/-- A character denotes no field type exactly when it is none of the ten. -/
theorem fieldKind_eq_none_iff (ch : Byte) : fieldKind ch = none ↔ ch ∉ descriptorCodes := by
  refine ⟨not_mem_descriptorCodes, fun hch => ?_⟩
  cases hkind : fieldKind ch with
  | none => rfl
  | some kind =>
    rw [← kindCode_of_fieldKind hkind] at hch
    exact absurd (kindCode_mem_descriptorCodes kind) hch

theorem decode_descDec_reserved {ch : Byte} (h : fieldKind ch = none) :
    decode (.descDec ch) = .ok (.decBad ch) := by
  rw [decode, decodeDescDec, h]

theorem decode_descEnc_reserved {ch : Byte} (v : FieldVal) (h : fieldKind ch = none) :
    decode (.descEnc ch v) = .ok (.encBad ch) := by
  rw [decode, decodeDescEnc, h]

/-- Settles O6, by the field type the character denotes. -/
theorem descriptorCharactersSelectTheirSteps : Obligations.DescriptorCharactersSelectTheirSteps := by
  unfold Obligations.DescriptorCharactersSelectTheirSteps
  refine ⟨fun ch v => ?_, fieldKind_eq_none_iff⟩
  cases hkind : fieldKind ch with
  | none =>
    rw [decode_descDec_reserved hkind, decode_descEnc_reserved v hkind]
    simp only [List.mem_cons, true_or, or_true]
  | some kind =>
    obtain rfl := kindCode_of_fieldKind hkind
    rw [decode, decode, decodeDescDec, decodeDescEnc, hkind]
    cases kind with
    | scalar w | rep w => cases w <;> simp only [kindCode, List.mem_cons, true_or, or_true]
    | str | raw => simp only [kindCode, List.mem_cons, true_or, or_true]

/-! ### The decoder undoes the encoder (R86, R93, R95, R99, R100) -/

/-- Settles O3, constructor by constructor: an operand that well-formedness constrains is one that no earlier
row takes, and every other operand is a line of the transfer. -/
theorem decodingUndoesEncoding : Obligations.DecodingUndoesEncoding := by
  unfold Obligations.DecodingUndoesEncoding
  intro i hwf
  cases i with
  | feedResync e => exact decode_feed (selectFeed_mark_drop e)
  | feedSkip e b =>
    have hmark : b ≠ MARK := bne_iff_ne.1 hwf
    exact decode_feed (selectFeed_dropped e b hmark)
  | feedFlush => exact decode_feed selectFeed_mark_esc
  | feedEnd => exact decode_feed selectFeed_mark
  | feedEsc e => exact decode_feed (selectFeed_escb e)
  | feedTmark => exact decode_feed selectFeed_tmark
  | feedTesc => exact decode_feed selectFeed_tesc
  | feedBadesc b =>
    simp only [Instr.wellFormed, Bool.and_eq_true, bne_iff_ne] at hwf
    obtain ⟨⟨⟨hmark, hesc⟩, htmark⟩, htesc⟩ := hwf
    exact decode_feed (selectFeed_badesc b hmark hesc htmark htesc)
  | feedData b =>
    simp only [Instr.wellFormed, Bool.and_eq_true, bne_iff_ne] at hwf
    obtain ⟨hmark, hesc⟩ := hwf
    exact decode_feed (selectFeed_data b hmark hesc)
  | decBad ch =>
    have hch : ch ∉ descriptorCodes := by simpa [Instr.wellFormed] using hwf
    exact decode_descDec_reserved ((fieldKind_eq_none_iff ch).2 hch)
  | encBad ch =>
    have hch : ch ∉ descriptorCodes := by simpa [Instr.wellFormed] using hwf
    exact decode_descEnc_reserved (.raw []) ((fieldKind_eq_none_iff ch).2 hch)
  | decS1 | decS2 | decS4 | decS8 | decStr | decR1 | decR2 | decR4 | decR8 | decRaw => rfl
  | encS1 _ | encS2 _ | encS4 _ | encS8 _ | encStr _ | encR1 _ | encR2 _ | encR4 _ | encR8 _
  | encRaw _ => rfl
  | fcEnc _ | ccDec _ | ccEnc _ _ | sqEnq _ _ _ | pqPush _ | sysReset | sysClrdiag | sysRdcsr _ => rfl
  | sqSeq | sqKill | tickSweep _ | tickGen _ _ | tickSend _ _ | tickRearm _ | sqDisp _ _ => rfl
  | rxByte _ _ | evConn _ | evDisc _ | sqTick _ _ _ => rfl

/-- Settles O5: each written word is the encoding of the operation it stands for. -/
theorem writtenWordsDecodeToTheirOperations : Obligations.WrittenWordsDecodeToTheirOperations := by
  unfold Obligations.WrittenWordsDecodeToTheirOperations
  have hword : ∀ {x : Transfer} (i : Instr), x = encode i → i.wellFormed = true → decode x = .ok i :=
    fun i hx hwf => hx ▸ decodingUndoesEncoding i hwf
  and_intros <;> exact hword _ rfl rfl

/-! ### Reserved codes (R101) -/

theorem decodeHost_reserved {op : BitVec 5} (x : HostOperands) (now : Time)
    (hop : op.toNat ∉ [0x01, 0x02, 0x03, 0x04, 0x05, 0x08, 0x09, 0x0A]) :
    decodeHost op x now = .error (.reservedHostOp op) := by
  have hne : ∀ c ∈ [(0x01 : BitVec 5), 0x02, 0x03, 0x04, 0x05, 0x08, 0x09, 0x0A], op ≠ c :=
    fun c hc heq => hop (heq ▸ List.mem_map_of_mem (f := BitVec.toNat) hc)
  simp only [List.forall_mem_cons] at hne
  obtain ⟨h1, h2, h3, h4, h5, h8, h9, hA, -⟩ := hne
  rw [decodeHost, if_neg h1, if_neg h2, if_neg h3, if_neg h4, if_neg h5, if_neg h8, if_neg h9, if_neg hA]

theorem decodeXpt_reserved {code : BitVec 2} (reason : BitVec 3) (now : Time)
    (hcode : code = 0 ∨ code = 3) :
    decodeXpt code reason now = .error (.reservedXptCode code) := by
  obtain rfl | rfl := hcode <;> rfl

section Reserved

variable {s : State} {x : Transfer} {rest : List Transfer} (hcfg : configOk s.cfg = true)
  (hin : s.inbox = x :: rest)
include hcfg hin

/-- A transfer with a reserved `HOST` op code is taken and answered `Err(BadOp)`. -/
theorem step_of_reservedHostOp {op : BitVec 5} (hdec : decode x = .error (.reservedHostOp op)) :
    step s = .next (respond (.err .badOp) { s with inbox := rest }) := by
  rw [step, if_pos hcfg, hin]
  dsimp only
  rw [hdec]

/-- A transfer with a reserved `XPT` code is taken and has no result. -/
theorem step_of_reservedXptCode {code : BitVec 2} (hdec : decode x = .error (.reservedXptCode code)) :
    step s = .next (respond .none { s with inbox := rest }) := by
  rw [step, if_pos hcfg, hin]
  dsimp only
  rw [hdec]

end Reserved

/-- Settles O2: a code outside R99 passes every row of its channel's table. -/
theorem reservedCodesChangeNothing : Obligations.ReservedCodesChangeNothing := by
  unfold Obligations.ReservedCodesChangeNothing
  exact fun _ _ hcfg =>
    ⟨fun _ x now hin hop => step_of_reservedHostOp hcfg hin (decodeHost_reserved x now hop),
      fun _ reason now hin hcode => step_of_reservedXptCode hcfg hin (decodeXpt_reserved reason now hcode)⟩

/-! ### The length of a frame and its markers (R87, R124) -/

/-- The byte is one that the wire form escapes (R88). -/
def needsEscape (b : Byte) : Bool := b == 0xC0 || b == 0xDB

theorem wireByte_length (b : Byte) : (wireByte b).length = 1 + (needsEscape b).toNat := by
  unfold wireByte
  split
  · next h => subst h; rfl
  split
  · next h => subst h; rfl
  · next hmark hesc =>
    have hplain : needsEscape b = false :=
      Bool.or_eq_false_iff.2 ⟨beq_eq_false_iff_ne.2 hmark, beq_eq_false_iff_ne.2 hesc⟩
    rw [hplain]
    rfl

/-- No escaped byte is the marker: that is what the escape is for (R88). -/
theorem mark_not_mem_wireByte (b : Byte) : (0xC0 : Byte) ∉ wireByte b := by
  unfold wireByte
  split
  · decide
  split
  · decide
  · next hmark _ => exact fun h => hmark (List.mem_singleton.1 h).symm

theorem flatMap_wireByte_length (bs : List Byte) :
    (bs.flatMap wireByte).length = bs.length + bs.countP needsEscape := by
  induction bs with
  | nil => rfl
  | cons b bs ih =>
    rw [List.flatMap_cons, List.length_append, wireByte_length, ih, List.countP_cons, List.length_cons]
    cases needsEscape b <;> simp <;> omega

theorem frameBytes_length (p : List Byte) : (frameBytes p).length = p.length + 2 := by
  simp [frameBytes]

/-- The two markers, the payload and the trailer, and one byte more for each that is escaped (R124). -/
theorem fcEncode_length (p : List Byte) :
    (fcEncode p).length = p.length + 4 + (frameBytes p).countP needsEscape := by
  rw [fcEncode_eq_wireFrame, wireFrame, List.length_append, List.length_append, flatMap_wireByte_length,
    frameBytes_length, List.length_singleton]
  omega

/-- Settles O8, by the bytes between the two markers: they are escaped one by one. -/
theorem frameLengthAndMarkers : Obligations.FrameLengthAndMarkers := by
  unfold Obligations.FrameLengthAndMarkers
  intro p
  have hlen := fcEncode_length p
  have hescaped := (frameBytes p).countP_le_length (p := needsEscape)
  rw [frameBytes_length] at hescaped
  refine ⟨hlen, by omega, by omega, (frameBytes p).flatMap wireByte, fcEncode_eq_wireFrame p, ?_⟩
  intro hmem
  obtain ⟨b, -, hb⟩ := List.mem_flatMap.1 hmem
  exact mark_not_mem_wireByte b hb

end Sys2Proof.Proofs
end

section
/-! Proofs of the family 40_frame_codec: the encoder, the nine receiver steps one by one, the round trip of a
frame through the receiver, and the frame with one changed byte. -/

namespace Sys2Proof.Proofs

open Sys2Proof Sys2Proof.Machine Sys2Proof.Safety

/-! ### The encoder (R123) -/

/-- Settles O7: the machine's running sum and R87's formula give the same frame. -/
theorem frameEncoderEmitsTheWireFrame : Obligations.FrameEncoderEmitsTheWireFrame := by
  unfold Obligations.FrameEncoderEmitsTheWireFrame
  intro p s
  rw [← fcEncode_eq_wireFrame]
  rfl

/-! ### The receiver steps one by one (R126 to R134) -/

/-- Settles O9: each step is one update of the flags, and its row of R93 is the first that matches. -/
theorem receiverStepsThatOnlyChangeFlags : Obligations.ReceiverStepsThatOnlyChangeFlags := by
  unfold Obligations.ReceiverStepsThatOnlyChangeFlags
  intro s
  refine ⟨⟨rfl, fun hdrop hesc => ?flush⟩, fun e => ⟨rfl, fun hdrop => ?esc⟩,
    fun b => ⟨rfl, fun hdrop hesc hb => ?badesc⟩, fun e => ⟨rfl, fun hdrop => ?resync⟩,
    fun e b => ⟨rfl, fun hdrop hb => ?skip⟩⟩
  case flush => exact feed_of_select hdrop hesc selectFeed_mark_esc
  case esc => exact feed_of_select hdrop rfl (selectFeed_escb s.rxEsc)
  case badesc =>
    simp only [List.mem_cons, List.not_mem_nil, or_false, not_or] at hb
    obtain ⟨hmark, hescb, htmark, htesc⟩ := hb
    exact feed_of_select hdrop hesc (selectFeed_badesc b hmark hescb htmark htesc)
  case resync => exact feed_of_select hdrop rfl (selectFeed_mark_drop s.rxEsc)
  case skip => exact feed_of_select hdrop rfl (selectFeed_dropped s.rxEsc b hb)

/-- A step that stores a byte where there is room: the byte is read back at its offset, and every other
offset reads as before (R122). -/
theorem fedNothing_rxAppend_room {s : State} (v : Byte) (e : Bool) (hwf : s.rxb.wf = true)
    (hroom : s.rxLen < s.cfg.rxCap) :
    ∃ m : Memory, fedNothing (rxAppend v { s with rxEsc := e }) =
        .next { s with rxb := m, rxLen := s.rxLen + 1, rxEsc := e, resp := .fed none } ∧
      memRead m s.rxLen = v ∧ ∀ a : Nat, a ≠ s.rxLen → memRead m a = memRead s.rxb a := by
  refine ⟨memWrite s.rxb s.rxLen v, ?_, memRead_memWrite_same hwf _ _,
    fun a ha => memRead_memWrite_other _ _ _ ha _⟩
  rw [rxAppend_room { s with rxEsc := e } v hroom]
  rfl

/-- A step that would store a byte where there is no room only records the overflow (R122). -/
theorem fedNothing_rxAppend_full {s : State} (v : Byte) (e : Bool) (hfull : ¬ s.rxLen < s.cfg.rxCap) :
    fedNothing (rxAppend v { s with rxEsc := e }) =
      .next { s with rxOvf := true, rxEsc := e, resp := .fed none } := by
  rw [rxAppend_full { s with rxEsc := e } v hfull]
  rfl

/-- The three steps that store a byte are one: `rx_append` of the byte, `rx_esc` set to its new value
(R129, R130, R132). -/
theorem exec_storing {s : State} {i : Instr} {b v : Byte} {e : Bool}
    (h : (i, v, e) ∈ [(.feedData b, b, s.rxEsc), (.feedTmark, (0xC0 : Byte), false),
      (.feedTesc, (0xDB : Byte), false)]) :
    exec i s = fedNothing (rxAppend v { s with rxEsc := e }) := by
  simp only [List.mem_cons, Prod.mk.injEq, List.not_mem_nil, or_false] at h
  obtain ⟨rfl, rfl, rfl⟩ | ⟨rfl, rfl, rfl⟩ | ⟨rfl, rfl, rfl⟩ := h <;> rfl

/-- Settles O10: the three steps are one `rx_append` each. -/
theorem receiverStepsThatStoreAByte : Obligations.ReceiverStepsThatStoreAByte := by
  unfold Obligations.ReceiverStepsThatStoreAByte
  intro s hwf b
  refine ⟨fun i v e hmem => ?_, fun hdrop hesc => feed_data hdrop hesc,
    fun hdrop hesc => feed_tmark hdrop hesc, fun hdrop hesc => feed_tesc hdrop hesc⟩
  rw [exec_storing hmem]
  exact ⟨fedNothing_rxAppend_room v e hwf, fedNothing_rxAppend_full v e⟩

/-- Settles O11, by what `FEED.END` does within the buffer. -/
theorem frameEndDeliversACheckedFrameOnly : Obligations.FrameEndDeliversACheckedFrameOnly := by
  unfold Obligations.FrameEndDeliversACheckedFrameOnly
  intro s hcap
  obtain ⟨r, hend, hr⟩ := execFeedEnd_within hcap
  refine ⟨fun hgood => ?_, fun hbad => ?_, feed_mark⟩
  · obtain rfl : r = some (rxBytes s (s.rxLen - 2)) := (hr _).2 ⟨hgood, rfl⟩
    exact hend
  · obtain rfl : r = none := Option.eq_none_iff_forall_ne_some.2 fun p hp => hbad ((hr p).1 hp).1
    exact hend

/-! ### Feeding bytes in order (R125) -/

theorem feedAll_cons {s s1 t : State} {b : Byte} {bs : List Byte} {rs : List (Option (List Byte))}
    (h : feed b s = .next s1) (hs : feedAll bs s1 = some (t, rs)) :
    feedAll (b :: bs) s = some (t, delivered s1 :: rs) := by
  simp only [feedAll, h, hs]

theorem feedAll_append {as bs : List Byte} {t u : State} {rs' : List (Option (List Byte))}
    (h' : feedAll bs t = some (u, rs')) :
    ∀ {s : State} {rs : List (Option (List Byte))}, feedAll as s = some (t, rs) →
      feedAll (as ++ bs) s = some (u, rs ++ rs') := by
  induction as with
  | nil =>
    intro s rs h
    cases h
    exact h'
  | cons a as ih =>
    intro s rs h
    unfold feedAll at h
    split at h
    · next s1 hfeed =>
      split at h
      · next s2 rs2 hrest =>
        cases h
        exact feedAll_cons hfeed (ih hrest)
      · cases h
    · cases h
    · cases h

/-- Feeding the bytes leads from the first state to the last, and none of them delivers anything. -/
def FedSilently (s : State) (bs : List Byte) (t : State) : Prop :=
  feedAll bs s = some (t, List.replicate bs.length none)

namespace FedSilently

variable {s s1 t u : State} {b : Byte} {as bs : List Byte}

theorem nil (s : State) : FedSilently s [] s := rfl

theorem cons (h : feed b s = fedNothing s1) (hs : FedSilently (respond (.fed none) s1) bs t) :
    FedSilently s (b :: bs) t := feedAll_cons h hs

theorem append (h : FedSilently s as t) (h' : FedSilently t bs u) : FedSilently s (as ++ bs) u := by
  unfold FedSilently
  rw [feedAll_append h' h, List.replicate_append_replicate, List.length_append]

end FedSilently

/-! ### No receiver step reads the last result (R125) -/

theorem rxAppend_respond (v : Byte) (r : Resp) (s : State) :
    rxAppend v (respond r s) = respond r (rxAppend v s) := by
  by_cases hroom : s.rxLen < s.cfg.rxCap
  · rw [rxAppend_room s v hroom, rxAppend_room (respond r s) v hroom]
    rfl
  · rw [rxAppend_full s v hroom, rxAppend_full (respond r s) v hroom]
    rfl

theorem execFeedEnd_respond (r : Resp) (s : State) : execFeedEnd (respond r s) = execFeedEnd s := rfl

/-! ### The receiver inside a frame, fed byte by byte -/

/-- Up to the last result, the receiver has taken the unescaped bytes `q` of a frame since `s`. -/
def Holds (s : State) (q : List Byte) (t : State) : Prop := Accumulated s q (respond .none t)

namespace Holds

variable {s t : State} {q : List Byte}

theorem accumulated (h : Holds s q t) : Accumulated s q (respond .none t) := h

theorem frame (h : Holds s q t) : t = { s with rxb := t.rxb, rxLen := q.length, resp := t.resp } :=
  congrArg (respond t.resp) h.accumulated.frame

theorem cfg_eq (h : Holds s q t) : t.cfg = s.cfg := h.accumulated.cfg_eq

theorem rxLen_eq (h : Holds s q t) : t.rxLen = q.length := h.accumulated.rxLen_eq

theorem rxEsc_eq (h : Holds s q t) : t.rxEsc = s.rxEsc := h.accumulated.rxEsc_eq

theorem rxDrop_eq (h : Holds s q t) : t.rxDrop = s.rxDrop := h.accumulated.rxDrop_eq

theorem rxBytes_eq (h : Holds s q t) : rxBytes t t.rxLen = q := by
  rw [h.rxLen_eq]
  exact (memReadRange_zero_eq_map t.rxb q.length).symm.trans h.accumulated.content

theorem store (h : Holds s q t) (hroom : q.length < s.cfg.rxCap) (v : Byte) :
    Holds s (q ++ [v]) (respond (.fed none) (rxAppend v t)) := by
  have hstored := h.accumulated.store hroom v
  rw [rxAppend_respond] at hstored
  exact hstored

end Holds

/-- An escape byte and the substitute standing for `v` store `v` (R128 to R130). -/
theorem fedSilently_escaped {t : State} {sub v : Byte} (hesc : t.rxEsc = false) (hdrop : t.rxDrop = false)
    (hsub : ∀ x : State, x.rxDrop = false → x.rxEsc = true →
      feed sub x = fedNothing (rxAppend v { x with rxEsc := false })) :
    FedSilently t [ESCB, sub] (respond (.fed none) (rxAppend v t)) := by
  have hsecond := hsub (respond (.fed none) { t with rxEsc := true }) hdrop rfl
  have hback : ({ respond (.fed none) { t with rxEsc := true } with rxEsc := false } : State) =
      respond (.fed none) t := by
    rw [← hesc]
    rfl
  rw [hback, rxAppend_respond] at hsecond
  exact .cons (feed_esc hdrop hesc) (.cons hsecond (.nil _))

/-- The wire form of `v`, escaped or not, stores `v` (R88). -/
theorem fedSilently_escByte {t : State} (hesc : t.rxEsc = false) (hdrop : t.rxDrop = false) (v : Byte) :
    FedSilently t (escByte v) (respond (.fed none) (rxAppend v t)) := by
  unfold escByte
  split
  · next hmark =>
    subst hmark
    exact fedSilently_escaped hesc hdrop fun _ => feed_tmark
  · next hmark =>
    split
    · next hescb =>
      subst hescb
      exact fedSilently_escaped hesc hdrop fun _ => feed_tesc
    · next hescb => exact .cons (feed_data hdrop hesc hmark hescb) (.nil _)

/-- The wire form of bytes that fit the buffer is taken in silence, and leaves those bytes held. -/
theorem Holds.fedSilently_flatMap {s : State} (hesc : s.rxEsc = false) (hdrop : s.rxDrop = false)
    (bs : List Byte) : ∀ {q : List Byte} {t : State},
    Holds s q t → q.length + bs.length ≤ s.cfg.rxCap →
      ∃ u, FedSilently t (bs.flatMap escByte) u ∧ Holds s (q ++ bs) u := by
  induction bs with
  | nil => intro q t h _; exact ⟨t, .nil t, by simpa using h⟩
  | cons b bs ih =>
    intro q t h hroom
    rw [List.length_cons] at hroom
    have hb := fedSilently_escByte (h.rxEsc_eq.trans hesc) (h.rxDrop_eq.trans hdrop) b
    obtain ⟨u, hrun, hu⟩ := ih (h.store (by omega) b) (by simp; omega)
    exact ⟨u, hb.append hrun, by simpa using hu⟩

/-- The receiver as a marker leaves it: empty, outside an escape, dropping nothing (R77). -/
def emptied (s : State) : State := { s with rxLen := 0, rxEsc := false, rxDrop := false }

/-- The opening marker leaves the receiver empty from every state, and closes a frame only where bytes
were held outside an escape and none were being dropped (R135, R136). -/
theorem feed_openingMark {s : State} (hwf : s.rxb.wf = true) (hcap : s.rxLen ≤ s.cfg.rxCap) :
    ∃ t, feed MARK s = .next t ∧ Holds (emptied s) [] t ∧
      (s.rxLen = 0 ∨ s.rxEsc = true ∨ s.rxDrop = true → delivered t = none) := by
  obtain ⟨t, hfeed, hdel⟩ := feed_within MARK hcap
  refine ⟨t, hfeed, ?_, fun hquiet => Option.eq_none_iff_forall_ne_some.2 fun p hp => ?_⟩
  · obtain ⟨r, rfl⟩ := feed_mark_next hfeed
    exact ⟨rfl, hwf, rfl⟩
  · obtain ⟨-, hdrop, hesc, ⟨h2, -⟩, -⟩ := (hdel p).1 hp
    obtain hlen | hesc' | hdrop' := hquiet
    · omega
    · exact absurd (hesc'.symm.trans hesc) (by decide)
    · exact absurd (hdrop'.symm.trans hdrop) (by decide)

/-- The wire form of any bytes that fit, met by any receiver within its buffer: the marker empties it, and
what follows is taken in silence. -/
theorem feedAll_opened {s : State} (hwf : s.rxb.wf = true) (hcap : s.rxLen ≤ s.cfg.rxCap)
    {q : List Byte} (hq : q.length ≤ s.cfg.rxCap) :
    ∃ (u : State) (d : Option (List Byte)),
      feedAll (MARK :: q.flatMap escByte) s =
        some (u, d :: List.replicate (q.flatMap escByte).length none) ∧
      Holds (emptied s) q u ∧ (s.rxLen = 0 ∨ s.rxEsc = true ∨ s.rxDrop = true → d = none) := by
  obtain ⟨t, hopen, hstart, hnone⟩ := feed_openingMark hwf hcap
  obtain ⟨u, hbody, hu⟩ := hstart.fedSilently_flatMap rfl rfl q (by simpa [emptied] using hq)
  exact ⟨u, delivered t, feedAll_cons hopen hbody, hu, hnone⟩

/-- A frame carries its payload and two bytes more (R87). -/
theorem append_trailer_length (p : List Byte) : (p ++ trailer p).length = p.length + 2 := by simp [trailer]

/-- The closing marker delivers the payload whose trailer the held bytes end with (R127). -/
theorem Holds.feed_closingMark {s u : State} {p : List Byte} (hesc : s.rxEsc = false)
    (hdrop : s.rxDrop = false) (hcap : p.length + 2 ≤ s.cfg.rxCap) (h : Holds s (p ++ trailer p) u) :
    feed MARK u = .next (respond (.fed (some p)) { u with rxLen := 0 }) := by
  have hdrop' := h.rxDrop_eq.trans hdrop
  have hesc' := h.rxEsc_eq.trans hesc
  calc feed MARK u
      = execFeedEnd u := feed_mark hdrop' hesc'
    _ = execFeedEnd (respond .none u) := (execFeedEnd_respond .none u).symm
    _ = feed MARK (respond .none u) := (feed_mark (s := respond .none u) hdrop' hesc').symm
    _ = .next (respond (.fed (some p)) { u with rxLen := 0 }) :=
      h.accumulated.feed_closingMark hesc hdrop hcap

/-- Settles O13: the opening marker empties the receiver, the escaped payload and trailer are taken in
silence, and the closing marker delivers the payload. -/
theorem framesRoundTripThroughTheReceiver : Obligations.FramesRoundTripThroughTheReceiver := by
  unfold Obligations.FramesRoundTripThroughTheReceiver
  intro p s hwf hcap hfit
  obtain ⟨u, d, hopened, hu, hnone⟩ :=
    feedAll_opened hwf hcap (q := p ++ trailer p) ((append_trailer_length p).trans_le hfit)
  have hclose := hu.feed_closingMark (s := emptied s) rfl rfl hfit
  refine ⟨respond (.fed (some p)) { u with rxLen := 0 }, d, ?_, hnone, ?_⟩
  · have hbody : (fcEncode p).length - 2 = ((p ++ trailer p).flatMap escByte).length := by
      simp [fcEncode_eq]
    rw [hbody, fcEncode_eq]
    exact feedAll_append (feedAll_cons hclose rfl) hopened
  · rw [hu.frame]
    rfl

/-! ### The sum that a frame must cancel (R82) -/

/-- The sum of a frame's unescaped bytes with the trailer taken as one little-endian value: every byte
counts once, and the last, the trailer's high byte, 255 times more (R64, R82). -/
def frameSum (q : List Byte) : Nat := (q.map BitVec.toNat).sum + 255 * (q.getLastD 0).toNat

theorem frameSum_snoc (q : List Byte) (b : Byte) :
    frameSum (q ++ [b]) = (q.map BitVec.toNat).sum + 256 * b.toNat := by
  rw [frameSum, List.map_append, List.sum_append, List.getLastD_concat, List.map_singleton,
    List.sum_singleton]
  omega

/-- A frame is good exactly when the sum of its bytes cancels (R82). -/
theorem frameGood_iff_frameSum {s : State} (h2 : 2 ≤ s.rxLen) :
    frameGood s ↔ frameSum (rxBytes s s.rxLen) % 65536 = 0 := by
  obtain ⟨n, hn⟩ := Nat.exists_eq_add_of_le' h2
  have hsum : frameSum (rxBytes s s.rxLen) =
      ((rxBytes s (s.rxLen - 2)).map BitVec.toNat).sum + rxTrailer s := by
    have hbytes : rxBytes s (n + 2) = rxBytes s n ++ [memRead s.rxb n] ++ [memRead s.rxb (n + 1)] := by
      simp [rxBytes, List.range_succ]
    have hhigh : n + 2 - 1 = n + 1 := rfl
    rw [rxTrailer, hn, hbytes, frameSum_snoc, List.map_append, List.sum_append, List.map_singleton,
      List.sum_singleton, Nat.add_sub_cancel, hhigh]
    omega
  rw [frameGood, and_iff_right h2, checksum_eq_iff (rxTrailer_lt s), hsum]

/-- The trailer of a payload cancels its sum (R82). -/
theorem frameSum_trailer (p : List Byte) : frameSum (p ++ trailer p) % 65536 = 0 := by
  have hsplit : p ++ trailer p =
      p ++ [BitVec.ofNat 8 (checksum p)] ++ [BitVec.ofNat 8 (checksum p / 256)] := by
    simp [trailer_eq]
  rw [hsplit, frameSum_snoc, List.map_append, List.sum_append, List.map_singleton, List.sum_singleton,
    BitVec.toNat_ofNat, BitVec.toNat_ofNat, checksum]
  omega

/-- One changed byte changes the sum by less than 65536: by its difference, or by 256 times it in the last
place. -/
theorem frameSum_change {old new : Byte} (hne : new ≠ old) (as cs : List Byte)
    (h : frameSum (as ++ old :: cs) % 65536 = 0) : frameSum (as ++ new :: cs) % 65536 ≠ 0 := by
  have hold := old.isLt
  have hnew := new.isLt
  have hval : new.toNat ≠ old.toNat := fun heq => hne (BitVec.eq_of_toNat_eq heq)
  obtain rfl | ⟨ds, last, rfl⟩ := List.eq_nil_or_concat cs
  · rw [frameSum_snoc] at h ⊢
    omega
  · have hsum : ∀ b : Byte, frameSum (as ++ b :: (ds ++ [last])) =
        (as.map BitVec.toNat).sum + b.toNat + (ds.map BitVec.toNat).sum + 256 * last.toNat := by
      intro b
      rw [← List.cons_append, ← List.append_assoc, frameSum_snoc, List.map_append, List.sum_append,
        List.map_cons, List.sum_cons]
      omega
    rw [List.concat_eq_append, hsum] at h ⊢
    omega

/-! ### A single changed byte (R137) -/

theorem escByte_plain {b : Byte} (hmark : b ≠ MARK) (hescb : b ≠ ESCB) : escByte b = [b] := by
  rw [escByte, if_neg hmark, if_neg hescb]

/-- The wire form of a byte is an escape byte and a substitute, or the byte itself. -/
theorem escByte_cases (b : Byte) : (∃ sub, escByte b = [ESCB, sub]) ∨ escByte b = [b] := by
  unfold escByte
  split
  · exact .inl ⟨_, rfl⟩
  split
  · exact .inl ⟨_, rfl⟩
  · exact .inr rfl

/-- A wire byte that is no escape byte and follows none stands for itself: it is one of the escaped bytes.
`lead` is the byte in front of the wire form. -/
theorem exists_plain {old prev : Byte} (hold : old ≠ ESCB) (hprev : prev ≠ ESCB) (bs : List Byte) :
    ∀ {lead : Byte} {k : Nat}, (bs.flatMap escByte)[k]? = some old →
      (lead :: bs.flatMap escByte)[k]? = some prev →
      ∃ as cs, bs = as ++ old :: cs ∧ (as.flatMap escByte).length = k := by
  induction bs with
  | nil => intro lead k hk; simp at hk
  | cons b bs ih =>
    intro lead k hk hlead
    rw [List.flatMap_cons] at hk hlead
    obtain ⟨sub, hpair⟩ | hself := escByte_cases b
    · rw [hpair] at hk hlead
      match k with
      | 0 => exact absurd (Option.some.inj hk).symm hold
      | 1 => exact absurd (Option.some.inj hlead).symm hprev
      | k + 2 =>
        obtain ⟨as, cs, rfl, hlen⟩ := ih (lead := sub) (k := k) hk hlead
        exact ⟨b :: as, cs, rfl, by simp [hpair, ← hlen]⟩
    · rw [hself] at hk hlead
      match k with
      | 0 =>
        obtain rfl : b = old := Option.some.inj hk
        exact ⟨[], bs, rfl, rfl⟩
      | k + 1 =>
        obtain ⟨as, cs, rfl, hlen⟩ := ih (lead := b) (k := k) hk hlead
        exact ⟨b :: as, cs, rfl, by simp [hself, ← hlen]⟩

/-- Changing a plain byte of a frame to another plain byte gives the wire form of the same unescaped bytes
but for that one. -/
theorem fcEncode_set {p : List Byte} {k : Nat} {old new prev : Byte} (hk0 : 0 < k)
    (hk : k + 1 < (fcEncode p).length) (hget : (fcEncode p)[k]? = some old)
    (hgetPrev : (fcEncode p)[k - 1]? = some prev) (holdMark : old ≠ MARK) (hold : old ≠ ESCB)
    (hnewMark : new ≠ MARK) (hnew : new ≠ ESCB) (hprev : prev ≠ ESCB) :
    ∃ as cs, p ++ trailer p = as ++ old :: cs ∧
      (fcEncode p).set k new = MARK :: (as ++ new :: cs).flatMap escByte ++ [MARK] := by
  obtain ⟨j, rfl⟩ := Nat.exists_eq_add_of_le' hk0
  rw [fcEncode_eq] at hk hget hgetPrev ⊢
  have hj : j < ((p ++ trailer p).flatMap escByte).length := by
    rw [List.length_cons, List.length_append, List.length_singleton] at hk
    omega
  rw [List.getElem?_cons_succ, List.getElem?_append_left hj] at hget
  rw [Nat.add_sub_cancel, ← List.cons_append,
    List.getElem?_append_left (Nat.lt_succ_of_lt hj)] at hgetPrev
  obtain ⟨as, cs, hsplit, rfl⟩ := exists_plain hold hprev (p ++ trailer p) hget hgetPrev
  refine ⟨as, cs, hsplit, ?_⟩
  simp [hsplit, escByte_plain holdMark hold, escByte_plain hnewMark hnew]

/-- Settles O14: the changed frame is taken in silence like any other, and its sum no longer cancels. -/
theorem aSingleChangedByteIsRejected : Obligations.ASingleChangedByteIsRejected := by
  unfold Obligations.ASingleChangedByteIsRejected
  intro p s k old new prev hwf hlen _ _ hfit hk0 hk hget hgetPrev holdMark hold hnewMark hnew hprev hne
  obtain ⟨as, cs, hsplit, hset⟩ :=
    fcEncode_set hk0 hk hget hgetPrev holdMark hold hnewMark hnew hprev
  have hcount : (as ++ new :: cs).length = p.length + 2 := by
    rw [← append_trailer_length p, hsplit, List.length_append, List.length_append,
      List.length_cons, List.length_cons]
  obtain ⟨u, d, hopened, hu, hnone⟩ := feedAll_opened hwf (by omega) (q := as ++ new :: cs) (by omega)
  have hulen : u.rxLen = p.length + 2 := hu.rxLen_eq.trans hcount
  have hbad : ¬ frameGood u := by
    rw [frameGood_iff_frameSum (by omega), hu.rxBytes_eq]
    exact frameSum_change hne as cs (hsplit ▸ frameSum_trailer p)
  obtain ⟨t, hclose, hdel⟩ := feed_within (s := u) MARK (by rw [hulen, hu.cfg_eq]; exact hfit)
  have hlast : delivered t = none :=
    Option.eq_none_iff_forall_ne_some.2 fun x hx => by
      obtain ⟨-, -, -, hgood, -⟩ := (hdel x).1 hx
      exact hbad hgood
  refine ⟨t, _, by rw [hset]; exact feedAll_append (feedAll_cons hclose rfl) hopened, ?_⟩
  rw [hnone (.inl hlen), hlast]
  intro r hr
  simp only [List.mem_append, List.mem_cons, List.mem_replicate, List.not_mem_nil, or_false] at hr
  obtain (h | ⟨-, h⟩) | h := hr <;> exact h

end Sys2Proof.Proofs
end

section
/-! Proofs of the family 41_command_codec: the field steps of both codecs one by one, what the two walks over a
descriptor amount to, and the round trip of a command. -/

namespace Sys2Proof.Proofs

open Sys2Proof Sys2Proof.Machine Sys2Proof.Safety

/-! ### Little-endian bytes (R16) -/

/-- The recursion of `le_N` and its formula agree (R16). -/
theorem littleEndian_eq_leBytes : ∀ n v : Nat, littleEndian n v = leBytes n v
  | 0, _ => rfl
  | n + 1, v => by
    have ih := littleEndian_eq_leBytes n (v / 256)
    simp only [littleEndian, Nat.div_div_eq_div_mul] at ih
    simp [littleEndian, leBytes, List.range_succ_eq_map, ← ih, Function.comp_def, Nat.pow_succ']

theorem leBytes_getElem? {n i : Nat} (v : Nat) (h : i < n) :
    (leBytes n v)[i]? = some (BitVec.ofNat 8 (v / 256 ^ i)) := by
  rw [← littleEndian_eq_leBytes, littleEndian, List.getElem?_map, List.getElem?_range h]
  rfl

theorem fieldImage_eq_fieldBytes (v : FieldVal) : fieldImage v = fieldBytes v := by
  cases v <;> simp only [fieldImage, fieldBytes, littleEndian_eq_leBytes]

theorem flatMap_fieldImage (vs : List FieldVal) : vs.flatMap fieldImage = vs.flatMap fieldBytes :=
  congrArg vs.flatMap (funext fieldImage_eq_fieldBytes)

/-- `le_N` undoes `unle` on `N` bytes (R16). -/
theorem leBytes_unle : ∀ bs : List Byte, leBytes bs.length (unle bs) = bs
  | [] => rfl
  | b :: bs => by
    have hb := b.isLt
    have hhead : BitVec.ofNat 8 (unle (b :: bs)) = b := by
      apply BitVec.eq_of_toNat_eq
      simp only [unle, BitVec.toNat_ofNat]
      omega
    have htail : unle (b :: bs) / 256 = unle bs := by
      simp only [unle]
      omega
    rw [List.length_cons, leBytes, hhead, htail, leBytes_unle bs]

theorem unle_pair (lo hi : Byte) : unle [lo, hi] = lo.toNat + 256 * hi.toNat := by simp [unle]

section Slices

variable {buf : List Byte} {off n : Nat}

theorem slice_length (h : off + n ≤ buf.length) : (slice buf off n).length = n := by
  rw [slice, List.length_take, List.length_drop]
  omega

theorem slice_getElem? {i : Nat} (h : i < n) : (slice buf off n)[i]? = buf[off + i]? := by
  rw [slice, List.getElem?_take_of_lt h, List.getElem?_drop]

theorem drop_eq_slice_append (buf : List Byte) (off n : Nat) :
    buf.drop off = slice buf off n ++ buf.drop (off + n) := by
  rw [slice, ← List.drop_drop, List.take_append_drop]

theorem slice_pair {lo hi : Byte} (hlo : buf[off]? = some lo) (hhi : buf[off + 1]? = some hi) :
    slice buf off 2 = [lo, hi] := by
  obtain ⟨hlt, rfl⟩ := List.getElem?_eq_some_iff.1 hlo
  obtain ⟨hlt', rfl⟩ := List.getElem?_eq_some_iff.1 hhi
  rw [slice, List.drop_eq_getElem_cons hlt, List.drop_eq_getElem_cons hlt']
  rfl

theorem leBytes_unle_slice (h : off + n ≤ buf.length) :
    leBytes n (unle (slice buf off n)) = slice buf off n := by
  have := leBytes_unle (slice buf off n)
  rwa [slice_length h] at this

end Slices

/-- The scalar whose bytes start at `off` (R143, R149). -/
def scalarAt (w : Width) (buf : List Byte) (off : Nat) : BitVec w.bits :=
  BitVec.ofNat w.bits (unle (slice buf off w.bytes))

section Scalars

variable {w : Width} {buf : List Byte} {off : Nat}

/-- A scalar read from inside the buffer has the bytes it was read from. -/
theorem leBytes_scalarAt (h : off + w.bytes ≤ buf.length) :
    leBytes w.bytes (scalarAt w buf off).toNat = slice buf off w.bytes := by
  have hlt := unle_lt (slice buf off w.bytes)
  rw [slice_length h, show 256 ^ w.bytes = 2 ^ w.bits from (Nat.pow_mul 2 8 w.bytes).symm] at hlt
  rw [scalarAt, BitVec.toNat_ofNat, Nat.mod_eq_of_lt hlt, leBytes_unle_slice h]

theorem scalarAt_byte (h : off + w.bytes ≤ buf.length) {i : Nat} (hi : i < w.bytes) :
    buf[off + i]? = some (BitVec.ofNat 8 ((scalarAt w buf off).toNat / 256 ^ i)) := by
  rw [← slice_getElem? hi, ← leBytes_scalarAt h, leBytes_getElem? _ hi]

end Scalars

/-! ### The outcome of a codec operation (R140, R241) -/

theorem endDecStep_fieldDone (v : FieldVal) (cur : Nat) (s : State) :
    endDecStep (.ok (fieldDone v cur s.decW)) s = .next (fieldRead v cur s) := rfl

theorem endDecStep_error (e : ParseError) (s : State) :
    endDecStep (.error e) s = .next { s with resp := .parseErr e } := rfl

theorem endEncStep_none (s : State) : endEncStep none s = .next { s with resp := .bytes [] } := rfl

/-! ### Decoding a scalar (R143 to R147) -/

theorem exec_decScalarInstr (w : Width) (s : State) :
    exec (decScalarInstr w) s = endDecStep (decScalar s.cfg w s.decW) s := by
  cases w <;> rfl

section DecodeScalar

variable {c : Config} {w : Width} {k : DecWork}

theorem decScalar_inside (h : k.cur + w.bytes ≤ k.buf.length) :
    decScalar c w k = .ok (fieldDone (.scalar w (scalarAt w k.buf k.cur)) (k.cur + w.bytes) k) := by
  rw [decScalar, if_neg (by omega)]
  rfl

theorem decScalar_missing (h : k.buf.length < k.cur + w.bytes) (hid : k.id ≠ c.idStatusReport) :
    decScalar c w k = .error .charFieldOverflow := by
  rw [decScalar, if_pos h, if_neg hid]

/-- The status report's zero-fill (R143). -/
theorem decScalar_zeroFilled (h : k.buf.length < k.cur + w.bytes) (hid : k.id = c.idStatusReport) :
    decScalar c w k = .ok (fieldDone (.scalar w 0) k.buf.length k) := by
  rw [decScalar, if_pos h, if_pos hid]

end DecodeScalar

/-- Settles O17: a scalar is inside the buffer or wholly missing. -/
theorem scalarStepsReadLittleEndianValues : Obligations.ScalarStepsReadLittleEndianValues := by
  unfold Obligations.ScalarStepsReadLittleEndianValues
  intro w s
  rw [exec_decScalarInstr]
  refine ⟨fun hin => ⟨scalarAt w s.decW.buf s.decW.cur, ?inside, fun _ => scalarAt_byte hin⟩,
    fun hout hid => ?missing, fun hout hid => ?zeroFilled⟩
  case inside => rw [decScalar_inside hin, endDecStep_fieldDone]
  case missing => rw [decScalar_missing hout hid, endDecStep_error]
  case zeroFilled => rw [decScalar_zeroFilled hout hid, endDecStep_fieldDone]

/-! ### Decoding a string (R148) -/

theorem exec_decStr (s : State) : exec .decStr s = endDecStep (decString s.decW) s := rfl

theorem all_ne_zero_iff {bs : List Byte} : bs.all (fun b => b != 0x00) = true ↔ (0x00 : Byte) ∉ bs := by
  simp only [List.all_eq_true, bne_iff_ne]
  exact ⟨fun h hmem => h _ hmem rfl, fun h b hb => ne_of_mem_of_not_mem hb h⟩

/-- A string with its terminator ahead of the cursor is read up to the terminator. -/
theorem decString_terminated {k : DecWork} {bs rest : List Byte} (hbs : (0x00 : Byte) ∉ bs)
    (h : k.buf.drop k.cur = bs ++ 0x00 :: rest) :
    decString k = .ok (fieldDone (.cstr bs) (k.cur + bs.length + 1) k) := by
  rw [decString_ahead (rest := rest) (all_ne_zero_iff.2 hbs)
    (by rw [h, fieldBytes, List.append_assoc]; rfl)]
  simp [fieldBytes, Nat.add_assoc]

theorem decString_unterminated {k : DecWork} (h : (0x00 : Byte) ∉ k.buf.drop k.cur) :
    decString k = .error .readOverflow := by
  have hstr : strBytes k = k.buf.drop k.cur :=
    List.takeWhile_eq_self_iff.2 fun b hb => bne_iff_ne.2 (ne_of_mem_of_not_mem hb h)
  rw [decString, hstr, List.length_drop, if_pos (by omega)]

/-- A byte ahead of the cursor stands at an offset of the buffer. -/
theorem exists_getElem?_of_mem_drop {buf : List Byte} {off : Nat} {b : Byte} (h : b ∈ buf.drop off) :
    ∃ i, off ≤ i ∧ buf[i]? = some b := by
  obtain ⟨i, hi⟩ := List.mem_iff_getElem?.1 h
  exact ⟨off + i, by omega, by rwa [List.getElem?_drop] at hi⟩

theorem exists_getElem?_of_mem_slice {buf : List Byte} {off n : Nat} {b : Byte}
    (h : b ∈ slice buf off n) : ∃ i, off ≤ i ∧ i < off + n ∧ buf[i]? = some b := by
  obtain ⟨i, hi⟩ := List.mem_iff_getElem?.1 h
  have hlt : i < n := (List.getElem?_eq_some_iff.1 hi).1.trans_le (List.length_take_le _ _)
  exact ⟨off + i, by omega, by omega, by rwa [slice_getElem? hlt] at hi⟩

/-- Settles O18: the bytes before the first zero are the string, and the zero is its terminator. -/
theorem stringStepStopsAtTheFirstZero : Obligations.StringStepStopsAtTheFirstZero := by
  unfold Obligations.StringStepStopsAtTheFirstZero
  intro s
  rw [exec_decStr]
  refine ⟨fun j hle hj hfirst => ?_, fun hnone => ?_⟩
  · obtain ⟨hlt, hzero⟩ := List.getElem?_eq_some_iff.1 hj
    have hlen : (slice s.decW.buf s.decW.cur (j - s.decW.cur)).length = j - s.decW.cur :=
      slice_length (by omega)
    have hbs : (0x00 : Byte) ∉ slice s.decW.buf s.decW.cur (j - s.decW.cur) := fun hmem =>
      have ⟨i, hcur, hi, hbyte⟩ := exists_getElem?_of_mem_slice hmem
      hfirst i hcur (by omega) hbyte
    have hahead := drop_eq_slice_append s.decW.buf s.decW.cur (j - s.decW.cur)
    rw [Nat.add_sub_cancel' hle, List.drop_eq_getElem_cons hlt, hzero] at hahead
    rw [decString_terminated hbs hahead, hlen, endDecStep_fieldDone, Nat.add_sub_cancel' hle]
  · have habsent : (0x00 : Byte) ∉ s.decW.buf.drop s.decW.cur := fun hmem =>
      have ⟨i, hle, hbyte⟩ := exists_getElem?_of_mem_drop hmem
      hnone i hle hbyte
    rw [decString_unterminated habsent, endDecStep_error]

/-! ### Decoding a repeated scalar (R149 to R152) -/

theorem exec_decRepInstr (w : Width) (s : State) :
    exec (decRepInstr w) s = endDecStep (decRep w s.decW) s := by
  cases w <;> rfl

section Elements

variable {w : Width} {buf : List Byte}

theorem repElems_cons (off n : Nat) :
    repElems w buf off (n + 1) = scalarAt w buf off :: repElems w buf (off + w.bytes) n := rfl

theorem repElems_length : ∀ n off : Nat, (repElems w buf off n).length = n
  | 0, _ => rfl
  | n + 1, off => by rw [repElems_cons, List.length_cons, repElems_length n]

theorem repElems_getElem? : ∀ {n i : Nat} (off : Nat), i < n →
    (repElems w buf off n)[i]? = some (scalarAt w buf (off + i * w.bytes))
  | n + 1, 0, off, _ => by rw [repElems_cons, Nat.zero_mul]; rfl
  | n + 1, i + 1, off, h => by
    rw [repElems_cons, List.getElem?_cons_succ, repElems_getElem? _ (Nat.lt_of_succ_lt_succ h),
      Nat.succ_mul, Nat.add_assoc, Nat.add_comm w.bytes]

/-- The elements read from inside the buffer have, one after the other, the bytes they were read from. -/
theorem scalarsBytes_repElems : ∀ {n off : Nat}, off + n * w.bytes ≤ buf.length →
    scalarsBytes w (repElems w buf off n) = slice buf off (n * w.bytes)
  | 0, off, _ => by simp [repElems, scalarsBytes, slice]
  | n + 1, off, h => by
    rw [Nat.succ_mul, Nat.add_comm (n * w.bytes)] at h ⊢
    have ih := scalarsBytes_repElems (n := n) (off := off + w.bytes) (by omega)
    rw [scalarsBytes] at ih ⊢
    rw [repElems_cons, List.flatMap_cons, ih, leBytes_scalarAt (by omega), slice, slice, slice,
      ← List.drop_drop, ← List.take_add]

end Elements

section DecodeRepeated

variable {w : Width} {k : DecWork}

theorem decRep_noCount (h : k.buf[k.cur]? = none) : decRep w k = .error .readOverflow := by
  rw [decRep, h]

theorem decRep_beyond {b : Byte} (h : k.buf[k.cur]? = some b)
    (hout : k.buf.length < k.cur + 1 + b.toNat * w.bytes) : decRep w k = .error .readOverflow := by
  rw [decRep, h]
  exact if_pos hout

theorem decRep_inside {b : Byte} (h : k.buf[k.cur]? = some b)
    (hin : k.cur + 1 + b.toNat * w.bytes ≤ k.buf.length) :
    decRep w k = .ok (fieldDone (.rep w (repElems w k.buf (k.cur + 1) b.toNat))
      (k.cur + 1 + b.toNat * w.bytes) k) := by
  rw [decRep, h]
  exact if_neg (by omega)

end DecodeRepeated

/-- Settles O19, by the count byte and whether its elements end inside the buffer. -/
theorem repeatedStepsReadACountAndTheElements :
    Obligations.RepeatedStepsReadACountAndTheElements := by
  unfold Obligations.RepeatedStepsReadACountAndTheElements
  intro w s
  rw [exec_decRepInstr]
  refine ⟨fun b hb hin => ⟨_, by rw [decRep_inside hb hin, endDecStep_fieldDone],
      repElems_length _ _, fun i j x hx hj => ?elements⟩,
    fun hnone => by rw [decRep_noCount hnone, endDecStep_error],
    fun b hb hout => by rw [decRep_beyond hb hout, endDecStep_error]⟩
  case elements =>
    have hi : i < b.toNat := by
      have := (List.getElem?_eq_some_iff.1 hx).1
      rwa [repElems_length] at this
    rw [repElems_getElem? _ hi] at hx
    have hend : (i + 1) * w.bytes ≤ b.toNat * w.bytes := Nat.mul_le_mul_right _ hi
    rw [Nat.succ_mul] at hend
    rw [scalarAt_byte (w := w) (by omega) hj, Option.some.inj hx]

/-! ### Decoding a raw buffer (R153) -/

theorem exec_decRaw (s : State) :
    exec .decRaw s = endDecStep (decRawBuffer s.cfg s.decW) s := rfl

/-- The length a raw buffer declares at the cursor (R153). -/
def rawLength (k : DecWork) : Nat := unle (slice k.buf k.cur 2)

theorem rawLength_eq {k : DecWork} {lo hi : Byte} (hlo : k.buf[k.cur]? = some lo)
    (hhi : k.buf[k.cur + 1]? = some hi) : rawLength k = lo.toNat + 256 * hi.toNat := by
  rw [rawLength, slice_pair hlo hhi, unle_pair]

section DecodeRaw

variable {c : Config} {k : DecWork}

theorem decRawBuffer_incomplete (h : k.buf.length < k.cur + 2) :
    decRawBuffer c k = .error .dbufIncomplete := by
  rw [decRawBuffer, if_pos (by omega)]

theorem decRawBuffer_largerThanData (h : k.cur + 2 ≤ k.buf.length)
    (hout : k.buf.length < k.cur + 2 + rawLength k) :
    decRawBuffer c k = .error .dbufLenLargerData := by
  rw [decRawBuffer, if_neg (by omega)]
  unfold rawLength at hout
  exact if_pos (by omega)

theorem decRawBuffer_tooLarge (h : k.cur + 2 + rawLength k ≤ k.buf.length)
    (hmax : c.maxPayload < rawLength k) : decRawBuffer c k = .error .dbufLenTooLarge := by
  rw [decRawBuffer, if_neg (by omega)]
  unfold rawLength at h hmax
  exact (if_neg (by omega)).trans (if_pos hmax)

theorem decRawBuffer_inside (h : k.cur + 2 + rawLength k ≤ k.buf.length)
    (hmax : rawLength k ≤ c.maxPayload) :
    decRawBuffer c k = .ok (fieldDone (.raw (slice k.buf (k.cur + 2) (rawLength k)))
      (k.cur + 2 + rawLength k) k) := by
  rw [decRawBuffer, if_neg (by omega)]
  unfold rawLength at h hmax
  exact (if_neg (by omega)).trans (if_neg (by omega))

end DecodeRaw

/-- Settles O20: the three tests compare the declared length with what remains, then with `MAX_PAYLOAD`. -/
theorem rawBufferStepTestsInOrder : Obligations.RawBufferStepTestsInOrder := by
  unfold Obligations.RawBufferStepTestsInOrder
  intro s
  rw [exec_decRaw]
  refine ⟨fun h => by rw [decRawBuffer_incomplete h, endDecStep_error], fun lo hi len hlo hhi hlen => ?_⟩
  obtain rfl : len = rawLength s.decW := hlen.trans (rawLength_eq hlo hhi).symm
  have htwo := (List.getElem?_eq_some_iff.1 hhi).1
  refine ⟨fun hout => ?_, fun hin hmax => ?_, fun hin hmax => ?_⟩
  · rw [decRawBuffer_largerThanData htwo hout, endDecStep_error]
  · rw [decRawBuffer_tooLarge hin hmax, endDecStep_error]
  · rw [decRawBuffer_inside hin hmax, endDecStep_fieldDone]

/-! ### What a decode step that reads a field has read (R155) -/

/-- The value `v` stands at the cursor and `cur` is the offset after it, unless the status report's zero-fill
(R143) can have supplied it. -/
def ReadAhead (c : Config) (k : DecWork) (v : FieldVal) (cur : Nat) : Prop :=
  k.id ≠ c.idStatusReport → k.buf.drop k.cur = fieldBytes v ++ k.buf.drop cur

section StepReads

variable {c : Config} {k k1 : DecWork}

/-- The bytes of a field that are the buffer's next `n` bytes stand at the cursor. -/
theorem readAhead_of_slice {v : FieldVal} {n : Nat} (h : fieldBytes v = slice k.buf k.cur n) :
    ReadAhead c k v (k.cur + n) := fun _ => h ▸ drop_eq_slice_append _ _ _

theorem decScalar_ok {w : Width} (h : decScalar c w k = .ok k1) :
    ∃ v cur, k1 = fieldDone (.scalar w v) cur k ∧ ReadAhead c k (.scalar w v) cur := by
  by_cases hin : k.cur + w.bytes ≤ k.buf.length
  · rw [decScalar_inside hin] at h
    cases h
    exact ⟨_, _, rfl, readAhead_of_slice (leBytes_scalarAt hin)⟩
  · by_cases hid : k.id = c.idStatusReport
    · rw [decScalar_zeroFilled (by omega) hid] at h
      cases h
      exact ⟨_, _, rfl, fun hne => absurd hid hne⟩
    · rw [decScalar_missing (by omega) hid] at h
      cases h

theorem decString_ok (h : decString k = .ok k1) :
    ∃ bs cur, k1 = fieldDone (.cstr bs) cur k ∧ (0x00 : Byte) ∉ bs ∧ ReadAhead c k (.cstr bs) cur := by
  by_cases hmem : (0x00 : Byte) ∈ k.buf.drop k.cur
  · obtain ⟨bs, rest, hahead, hbs⟩ := List.eq_append_cons_of_mem hmem
    rw [decString_terminated hbs hahead] at h
    cases h
    have hbytes : k.buf.drop k.cur = fieldBytes (.cstr bs) ++ rest := by
      rw [hahead, fieldBytes, List.append_assoc]
      rfl
    have hrest := drop_ahead hbytes
    rw [fieldBytes, List.length_append, List.length_singleton, ← Nat.add_assoc] at hrest
    exact ⟨bs, _, rfl, hbs, fun _ => hrest ▸ hbytes⟩
  · rw [decString_unterminated hmem] at h
    cases h

theorem decRep_ok {w : Width} (h : decRep w k = .ok k1) :
    ∃ xs cur, k1 = fieldDone (.rep w xs) cur k ∧ xs.length ≤ 255 ∧ ReadAhead c k (.rep w xs) cur := by
  cases hcount : k.buf[k.cur]? with
  | none =>
    rw [decRep_noCount hcount] at h
    cases h
  | some b =>
    by_cases hin : k.cur + 1 + b.toNat * w.bytes ≤ k.buf.length
    · rw [decRep_inside hcount hin] at h
      cases h
      have hb := b.isLt
      obtain ⟨hlt, hget⟩ := List.getElem?_eq_some_iff.1 hcount
      refine ⟨_, _, rfl, by rw [repElems_length]; omega, ?_⟩
      have hbytes : fieldBytes (.rep w (repElems w k.buf (k.cur + 1) b.toNat)) =
          b :: slice k.buf (k.cur + 1) (b.toNat * w.bytes) := by
        rw [← scalarsBytes_repElems hin, fieldBytes, repElems_length, BitVec.ofNat_toNat,
          BitVec.setWidth_eq]
        rfl
      intro _
      rw [hbytes, List.cons_append, ← drop_eq_slice_append, List.drop_eq_getElem_cons hlt, hget]
    · rw [decRep_beyond hcount (by omega)] at h
      cases h

theorem decRawBuffer_ok (h : decRawBuffer c k = .ok k1) :
    ∃ bs cur, k1 = fieldDone (.raw bs) cur k ∧ bs.length ≤ c.maxPayload ∧
      ReadAhead c k (.raw bs) cur := by
  by_cases htwo : k.cur + 2 ≤ k.buf.length
  · by_cases hin : k.cur + 2 + rawLength k ≤ k.buf.length
    · by_cases hmax : rawLength k ≤ c.maxPayload
      · rw [decRawBuffer_inside hin hmax] at h
        cases h
        have hlen : (slice k.buf (k.cur + 2) (rawLength k)).length = rawLength k := slice_length hin
        refine ⟨_, _, rfl, hlen.trans_le hmax, fun _ => ?_⟩
        rw [fieldBytes, hlen, rawLength, leBytes_unle_slice htwo, List.append_assoc,
          ← drop_eq_slice_append, ← drop_eq_slice_append]
      · rw [decRawBuffer_tooLarge hin (by omega)] at h
        cases h
    · rw [decRawBuffer_largerThanData htwo (by omega)] at h
      cases h
  · rw [decRawBuffer_incomplete (by omega)] at h
    cases h

/-- A field step that raises no error appends one value of its character's kind, read at the cursor
(R143 to R154). -/
theorem decStep_ok {ch : Byte} (h : decStep c ch k = .ok k1) :
    ∃ v cur, k1 = fieldDone v cur k ∧ fieldFits c ch v = true ∧ ReadAhead c k v cur := by
  unfold decStep at h
  split at h
  · next w hkind =>
    obtain ⟨v, cur, hk1, hahead⟩ := decScalar_ok h
    exact ⟨_, cur, hk1, by simp [fieldFits, hkind], hahead⟩
  · next hkind =>
    obtain ⟨bs, cur, hk1, hbs, hahead⟩ := decString_ok h
    exact ⟨_, cur, hk1, by simpa only [fieldFits, hkind] using all_ne_zero_iff.2 hbs, hahead⟩
  · next w hkind =>
    obtain ⟨xs, cur, hk1, hlen, hahead⟩ := decRep_ok h
    exact ⟨_, cur, hk1, by simp [fieldFits, hkind, hlen], hahead⟩
  · next hkind =>
    obtain ⟨bs, cur, hk1, hlen, hahead⟩ := decRawBuffer_ok h
    exact ⟨_, cur, hk1, by simp [fieldFits, hkind, hlen], hahead⟩
  · cases h

end StepReads

/-! ### The walk over a descriptor (R142, step 6) -/

section Walk

variable {c : Config} {ch : Byte} {desc : List Byte} {k k1 : DecWork}

theorem decWalk_cons_ok (h : decStep c ch k = .ok k1) : decWalk c (ch :: desc) k = decWalk c desc k1 := by
  rw [decWalk, h]

theorem decWalk_cons_error {e : ParseError} (h : decStep c ch k = .error e) :
    decWalk c (ch :: desc) k = .error e := by
  rw [decWalk, h]

theorem decStep_scalar {w : Width} (h : fieldKind ch = some (.scalar w)) :
    decStep c ch k = decScalar c w k := by
  rw [decStep, h]

theorem decStep_reserved (h : fieldKind ch = none) : decStep c ch k = .error .unknownField := by
  rw [decStep, h]

end Walk

/-- A walk over two descriptors in a row is the second walk from where the first ends (R142). -/
theorem decWalk_append (c : Config) (after : List Byte) : ∀ (before : List Byte) (k : DecWork),
    (∀ k1, decWalk c before k = .ok k1 → decWalk c (before ++ after) k = decWalk c after k1) ∧
    (∀ e, decWalk c before k = .error e → decWalk c (before ++ after) k = .error e)
  | [], k => ⟨fun k1 h => by cases h; rfl, fun e h => by cases h⟩
  | ch :: before, k => by
    rw [List.cons_append]
    cases hstep : decStep c ch k with
    | ok k2 =>
      rw [decWalk_cons_ok hstep, decWalk_cons_ok hstep]
      exact decWalk_append c after before k2
    | error e' =>
      rw [decWalk_cons_error hstep, decWalk_cons_error hstep]
      exact ⟨fun k1 h => (by cases h), fun e h => h⟩

/-- A walk that raises no error appends values that fit the descriptor and, but for the status report, stand
one after the other from the cursor on (R155). -/
theorem decWalk_ok {c : Config} : ∀ {desc : List Byte} {k k1 : DecWork}, decWalk c desc k = .ok k1 →
    ∃ vs, k1.fields = k.fields ++ vs ∧ fieldsFit c desc vs = true ∧
      (k.id ≠ c.idStatusReport → ∃ rest, k.buf.drop k.cur = vs.flatMap fieldBytes ++ rest)
  | [], k, k1, h => by
    cases h
    exact ⟨[], by simp, rfl, fun _ => ⟨k.buf.drop k.cur, rfl⟩⟩
  | ch :: desc, k, k1, h => by
    cases hstep : decStep c ch k with
    | error e =>
      rw [decWalk_cons_error hstep] at h
      cases h
    | ok k2 =>
      rw [decWalk_cons_ok hstep] at h
      obtain ⟨v, cur, rfl, hfit, hahead⟩ := decStep_ok hstep
      obtain ⟨vs, hfields, hfits, hrest⟩ := decWalk_ok h
      refine ⟨v :: vs, ?_, Bool.and_eq_true_iff.2 ⟨hfit, hfits⟩, fun hid => ?_⟩
      · rw [hfields]
        simp [fieldDone]
      · obtain ⟨rest, hvs⟩ := hrest hid
        have hcur : k.buf.drop cur = vs.flatMap fieldBytes ++ rest := hvs
        exact ⟨rest, by rw [hahead hid, hcur, List.flatMap_cons, List.append_assoc]⟩

/-! ### `CC.DEC` (R142) -/

/-- Where the walk over a buffer of `len` bytes starts when `rest` follows the header: past the stored length,
which must be `len`, or right after the header when there is no room for one (R142, decision D9). -/
def WalkStart (rest : List Byte) (len cur : Nat) : Prop :=
  (cur = 5 ∧ ∃ (lo hi : Byte) (tail : List Byte),
    rest = lo :: hi :: tail ∧ lo.toNat + 256 * hi.toNat = len) ∨
  (cur = 3 ∧ rest.length < 2)

/-- The locals with which the walk starts (R140). -/
def decStart (buf : List Byte) (id : Byte) (cur : Nat) : DecWork :=
  { buf := buf, id := id, cur := cur, di := 0, fields := [] }

theorem ccDecode_short {c : Config} {buf : List Byte} (h : buf.length < 3) :
    ccDecode c buf = .error .bufferTooSmall := by
  unfold ccDecode
  split
  · simp at h
    omega
  · rfl

section Decode

variable {c : Config} {id seq status : Byte} {rest desc : List Byte}

theorem ccDecode_unregistered (h : cmdEntry c id = .unregistered) :
    ccDecode c (id :: seq :: status :: rest) = .error .unknownCommand := by
  rw [ccDecode, h]

theorem ccDecode_noFields (h : cmdEntry c id = .noFields) :
    ccDecode c (id :: seq :: status :: rest) = .error .noFields := by
  rw [ccDecode, h]

variable (hdesc : cmdEntry c id = .fields desc)
include hdesc

/-- The stored length is compared with the length of the buffer (R142, step 5). -/
theorem ccDecode_long {lo hi : Byte} {tail : List Byte} (hrest : rest = lo :: hi :: tail) :
    ccDecode c (id :: seq :: status :: rest) =
      if lo.toNat + 256 * hi.toNat ≠ (id :: seq :: status :: rest).length then
        .error .wrongStoredLength
      else decFields c desc (id :: seq :: status :: rest) id seq status 5 := by
  subst hrest
  have hlong : 5 ≤ (id :: seq :: status :: lo :: hi :: tail).length := by simp
  have hstored : unle (slice (id :: seq :: status :: lo :: hi :: tail) 3 2) =
      lo.toNat + 256 * hi.toNat := unle_pair lo hi
  rw [ccDecode, hdesc]
  dsimp only
  rw [if_pos hlong, hstored]

theorem ccDecode_wrongStoredLength {lo hi : Byte} {tail : List Byte} (hrest : rest = lo :: hi :: tail)
    (h : lo.toNat + 256 * hi.toNat ≠ (id :: seq :: status :: rest).length) :
    ccDecode c (id :: seq :: status :: rest) = .error .wrongStoredLength := by
  rw [ccDecode_long hdesc hrest, if_pos h]

/-- Past the tests `CC.DEC` is the walk (R142, steps 6 and 7). -/
theorem ccDecode_walk {cur : Nat} (h : WalkStart rest (id :: seq :: status :: rest).length cur) :
    ccDecode c (id :: seq :: status :: rest) =
      decFields c desc (id :: seq :: status :: rest) id seq status cur := by
  obtain ⟨rfl, lo, hi, tail, hrest, hlen⟩ | ⟨rfl, hshort⟩ := h
  · rw [ccDecode_long hdesc hrest, if_neg (not_not.2 hlen)]
  · rw [ccDecode, hdesc]
    exact if_neg (by simp; omega)

theorem ccDecode_of_walk_ok {cur : Nat} {k : DecWork}
    (h : WalkStart rest (id :: seq :: status :: rest).length cur)
    (hwalk : decWalk c desc (decStart (id :: seq :: status :: rest) id cur) = .ok k) :
    ccDecode c (id :: seq :: status :: rest) =
      .ok { id := id, seq := seq, status := status, fields := k.fields } := by
  rw [decStart] at hwalk
  rw [ccDecode_walk hdesc h, decFields, hwalk]

theorem ccDecode_of_walk_error {cur : Nat} {e : ParseError}
    (h : WalkStart rest (id :: seq :: status :: rest).length cur)
    (hwalk : decWalk c desc (decStart (id :: seq :: status :: rest) id cur) = .error e) :
    ccDecode c (id :: seq :: status :: rest) = .error e := by
  rw [decStart] at hwalk
  rw [ccDecode_walk hdesc h, decFields, hwalk]

end Decode

/-- A buffer that reaches the walk starts it at one of its two places, or stores a wrong length. -/
theorem walkStart_or_wrong (rest : List Byte) (len : Nat) :
    (∃ cur, WalkStart rest len cur) ∨
    ∃ (lo hi : Byte) (tail : List Byte), rest = lo :: hi :: tail ∧ lo.toNat + 256 * hi.toNat ≠ len := by
  match rest with
  | [] => exact .inl ⟨3, .inr ⟨rfl, by simp⟩⟩
  | [_] => exact .inl ⟨3, .inr ⟨rfl, by simp⟩⟩
  | lo :: hi :: tail =>
    by_cases hlen : lo.toNat + 256 * hi.toNat = len
    · exact .inl ⟨5, .inl ⟨rfl, lo, hi, tail, rfl, hlen⟩⟩
    · exact .inr ⟨lo, hi, tail, rfl, hlen⟩

/-- `CC.DEC` gives `Ok` only after its tests and a walk without error, and the command has the header's bytes
and the walk's fields (R142). -/
theorem ccDecode_ok {c : Config} {buf : List Byte} {cmd : Command} (h : ccDecode c buf = .ok cmd) :
    ∃ rest desc cur k, buf = cmd.id :: cmd.seq :: cmd.status :: rest ∧
      cmdEntry c cmd.id = .fields desc ∧ WalkStart rest buf.length cur ∧
      decWalk c desc (decStart buf cmd.id cur) = .ok k ∧ cmd.fields = k.fields := by
  match buf with
  | [] | [_] | [_, _] =>
    rw [ccDecode_short (by simp)] at h
    cases h
  | id :: seq :: status :: rest =>
    cases hentry : cmdEntry c id with
    | unregistered =>
      rw [ccDecode_unregistered hentry] at h
      cases h
    | noFields =>
      rw [ccDecode_noFields hentry] at h
      cases h
    | fields desc =>
      obtain ⟨cur, hstart⟩ | ⟨lo, hi, tail, hrest, hlen⟩ :=
        walkStart_or_wrong rest (id :: seq :: status :: rest).length
      · cases hwalk : decWalk c desc (decStart (id :: seq :: status :: rest) id cur) with
        | ok k =>
          rw [ccDecode_of_walk_ok hentry hstart hwalk] at h
          cases h
          exact ⟨rest, desc, cur, k, rfl, hentry, hstart, hwalk, rfl⟩
        | error e =>
          rw [ccDecode_of_walk_error hentry hstart hwalk] at h
          cases h
      · rw [ccDecode_wrongStoredLength hentry hrest hlen] at h
        cases h

theorem exec_ccDec_ok {buf : List Byte} {s : State} {cmd : Command} (h : ccDecode s.cfg buf = .ok cmd) :
    exec (.ccDec buf) s = .next { s with resp := .decoded cmd } := by
  change execCcDec buf s = _
  rw [execCcDec, h]
  rfl

theorem exec_ccDec_error {buf : List Byte} {s : State} {e : ParseError}
    (h : ccDecode s.cfg buf = .error e) : exec (.ccDec buf) s = .next { s with resp := .parseErr e } := by
  change execCcDec buf s = _
  rw [execCcDec, h]
  rfl

/-- The operation R95 selects for a character is the walk's step for it. -/
theorem exec_decodeDescDec (ch : Byte) (s : State) :
    exec (decodeDescDec ch) s = endDecStep (decStep s.cfg ch s.decW) s := by
  rw [decodeDescDec, decStep]
  cases fieldKind ch with
  | none => rfl
  | some kind =>
    cases kind with
    | scalar w | rep w => cases w <;> rfl
    | str | raw => rfl

/-- Settles O16: `CC.DEC` test by test, and the walk character by character. -/
theorem commandDecodeTestsInOrder : Obligations.CommandDecodeTestsInOrder := by
  unfold Obligations.CommandDecodeTestsInOrder
  intro buf s
  refine ⟨fun hshort => exec_ccDec_error (ccDecode_short hshort), ?header, fun _ => rfl, ?walk⟩
  case header =>
    rintro id seq status rest rfl
    exact ⟨fun h => exec_ccDec_error (ccDecode_unregistered h),
      fun h => exec_ccDec_error (ccDecode_noFields h), fun desc hdesc =>
      ⟨fun _ _ _ hrest hlen => exec_ccDec_error (ccDecode_wrongStoredLength hdesc hrest hlen),
        fun _ hstart => ⟨fun _ hwalk => exec_ccDec_ok (ccDecode_of_walk_ok hdesc hstart hwalk),
          fun _ hwalk => exec_ccDec_error (ccDecode_of_walk_error hdesc hstart hwalk)⟩⟩⟩
  case walk =>
    intro ch desc
    refine ⟨decodeDescDec ch, rfl, ?_⟩
    rw [exec_decodeDescDec]
    cases hstep : decStep s.cfg ch s.decW with
    | ok k => exact .inl ⟨k, rfl, decWalk_cons_ok hstep⟩
    | error e => exact .inr ⟨e, rfl, decWalk_cons_error hstep⟩

/-- The buffer before the walk's start: the header, and the stored length when there is one (R90, R142). -/
theorem WalkStart.buffer_eq {id seq status : Byte} {buf rest : List Byte} {cur : Nat}
    (hbuf : buf = id :: seq :: status :: rest) (h : WalkStart rest buf.length cur) :
    (5 ≤ buf.length → buf = [id, seq, status] ++ littleEndian 2 buf.length ++ buf.drop cur) ∧
    (buf.length < 5 → buf = [id, seq, status] ++ buf.drop cur) := by
  have hcount : buf.length = rest.length + 3 := by rw [hbuf]; rfl
  obtain ⟨rfl, lo, hi, tail, rfl, hlen⟩ | ⟨rfl, hshort⟩ := h
  · have hstored : littleEndian 2 buf.length = [lo, hi] := by
      rw [littleEndian_eq_leBytes, ← hlen, ← unle_pair]
      exact leBytes_unle [lo, hi]
    rw [List.length_cons, List.length_cons] at hcount
    refine ⟨fun _ => ?_, fun hlt => by omega⟩
    rw [hstored, hbuf]
    rfl
  · refine ⟨fun hle => by omega, fun _ => ?_⟩
    rw [hbuf]
    rfl

/-- Settles O21, by what a walk without error has read. -/
theorem decodedFieldsAreTheBytesRead : Obligations.DecodedFieldsAreTheBytesRead := by
  unfold Obligations.DecodedFieldsAreTheBytesRead
  intro c buf cmd h
  obtain ⟨rest, desc, cur, k, hbuf, hdesc, hstart, hwalk, hfields⟩ := ccDecode_ok h
  obtain ⟨vs, hvs, hfits, hahead⟩ := decWalk_ok hwalk
  have hcmd : cmd.fields = vs := hfields.trans hvs
  refine ⟨?typed, fun hid => ?spelt⟩
  case typed =>
    rw [wellTyped, hdesc, hcmd]
    exact hfits
  case spelt =>
    obtain ⟨more, hmore⟩ := hahead hid
    have hdrop : buf.drop cur = cmd.fields.flatMap fieldImage ++ more := by
      rw [hcmd, flatMap_fieldImage]
      exact hmore
    obtain ⟨hlong, hshort⟩ := hstart.buffer_eq hbuf
    rw [hdrop, ← List.append_assoc] at hlong hshort
    exact ⟨more, hlong, hshort⟩

/-! ### The encode steps (R161 to R170) -/

theorem fieldBytes_length (v : FieldVal) : (fieldBytes v).length = fieldSize v := by
  cases v with
  | scalar w x => exact leBytes_length _ _
  | cstr bs => simp [fieldBytes, fieldSize]
  | rep w xs =>
    rw [fieldBytes, List.length_cons, fieldSize, ← scalarsBytes_length, Nat.add_comm]
    rfl
  | raw bs => simp [fieldBytes, fieldSize]

/-- The locals after the bytes of a value are written (R141). -/
def fieldPut (v : FieldVal) (k : EncWork) : EncWork :=
  { k with out := k.out ++ fieldBytes v, di := k.di + 1 }

theorem fieldPut_out_length (v : FieldVal) (k : EncWork) :
    (fieldPut v k).out.length = k.out.length + fieldSize v := by
  rw [fieldPut, List.length_append, fieldBytes_length]

theorem put_fieldBytes {v : FieldVal} {k : EncWork} (h : k.out.length + fieldSize v ≤ k.maxLen) :
    put (fieldBytes v) k = some (fieldPut v k) := by
  rw [put, fieldBytes_length, if_neg (by omega)]
  rfl

theorem put_fieldBytes_full {v : FieldVal} {k : EncWork} (h : k.maxLen < k.out.length + fieldSize v) :
    put (fieldBytes v) k = none := by
  rw [put, fieldBytes_length, if_pos h]

section EncodeField

variable {s : State} {v : FieldVal}

/-- A step that writes a value by itself, with room for it (R141). -/
theorem endEncStep_field (h : s.encW.out.length + fieldSize v ≤ s.encW.maxLen) :
    endEncStep (put (fieldBytes v) s.encW) s = .next (fieldWritten (fieldImage v) s) := by
  rw [put_fieldBytes h, fieldImage_eq_fieldBytes]
  rfl

/-- A step that would write a value by itself, without room for it (R141). -/
theorem endEncStep_field_full (h : s.encW.maxLen < s.encW.out.length + fieldSize v) :
    endEncStep (put (fieldBytes v) s.encW) s = .next { s with resp := .bytes [] } := by
  rw [put_fieldBytes_full h, endEncStep_none]

end EncodeField

theorem exec_encScalarInstr (v : FieldVal) (w : Width) (s : State) :
    exec (encScalarInstr v w) s = endEncStep (encScalar w v s.encW) s := by
  cases w <;> rfl

theorem encScalar_scalar {w : Width} (x : BitVec w.bits) (k : EncWork) :
    encScalar w (.scalar w x) k = put (fieldBytes (.scalar w x)) k := if_pos rfl

theorem encScalar_other {w : Width} {v : FieldVal} (h : ∀ x : BitVec w.bits, v ≠ .scalar w x)
    (k : EncWork) : encScalar w v k = none := by
  cases v with
  | scalar w' x => exact if_neg (by rintro rfl; exact h x rfl)
  | cstr _ | rep _ _ | raw _ => rfl

/-- Settles O22: the value is of the step's width or the step fails, with room or without. -/
theorem scalarStepsWriteLittleEndianBytes : Obligations.ScalarStepsWriteLittleEndianBytes := by
  unfold Obligations.ScalarStepsWriteLittleEndianBytes
  intro w v s
  rw [exec_encScalarInstr]
  refine ⟨?fits, fun hbad => ?fails⟩
  case fits =>
    rintro x rfl hroom
    rw [encScalar_scalar]
    exact endEncStep_field hroom
  case fails =>
    by_cases hkind : ∃ x : BitVec w.bits, v = .scalar w x
    · obtain ⟨x, rfl⟩ := hkind
      have hfull := hbad.resolve_left fun hne => hne x rfl
      rw [encScalar_scalar]
      exact endEncStep_field_full hfull
    · rw [encScalar_other (not_exists.1 hkind), endEncStep_none]

theorem exec_encStr (v : FieldVal) (s : State) :
    exec (.encStr v) s = endEncStep (encString v s.encW) s := rfl

theorem encString_other {v : FieldVal} (h : ∀ bs, v ≠ .cstr bs) (k : EncWork) :
    encString v k = none := by
  cases v with
  | cstr bs => exact absurd rfl (h bs)
  | scalar _ _ | rep _ _ | raw _ => rfl

theorem exec_encRaw (v : FieldVal) (s : State) :
    exec (.encRaw v) s = endEncStep (encRawBuffer s.cfg v s.encW) s := rfl

theorem encRawBuffer_raw {c : Config} {bs : List Byte} (h : bs.length ≤ c.maxPayload) (k : EncWork) :
    encRawBuffer c (.raw bs) k = put (fieldBytes (.raw bs)) k := if_neg (by omega)

theorem encRawBuffer_tooLarge {c : Config} {bs : List Byte} (h : c.maxPayload < bs.length)
    (k : EncWork) : encRawBuffer c (.raw bs) k = none := if_pos h

theorem encRawBuffer_other {c : Config} {v : FieldVal} (h : ∀ bs, v ≠ .raw bs) (k : EncWork) :
    encRawBuffer c v k = none := by
  cases v with
  | raw bs => exact absurd rfl (h bs)
  | scalar _ _ | cstr _ | rep _ _ => rfl

/-- Settles O23: either step writes the image of a value of its kind, `ENC.RAW` within `MAX_PAYLOAD` only. -/
theorem stringAndRawStepsWriteTheirImage : Obligations.StringAndRawStepsWriteTheirImage := by
  unfold Obligations.StringAndRawStepsWriteTheirImage
  intro v s
  rw [exec_encStr, exec_encRaw]
  refine ⟨?str, fun hne => by rw [encString_other hne, endEncStep_none], ?raw,
    fun hne => by rw [encRawBuffer_other hne, endEncStep_none]⟩
  case str =>
    rintro bs rfl
    exact ⟨fun hroom => endEncStep_field (v := .cstr bs) hroom,
      fun hfull => endEncStep_field_full (v := .cstr bs) hfull⟩
  case raw =>
    rintro bs rfl
    refine ⟨fun hmax hroom => ?_, fun hbad => ?_⟩
    · rw [encRawBuffer_raw hmax]
      exact endEncStep_field (by rw [fieldSize]; omega)
    · by_cases hmax : bs.length ≤ s.cfg.maxPayload
      · rw [encRawBuffer_raw hmax]
        exact endEncStep_field_full (by rw [fieldSize]; omega)
      · rw [encRawBuffer_tooLarge (by omega), endEncStep_none]

theorem exec_encRepInstr (v : FieldVal) (w : Width) (s : State) :
    exec (encRepInstr v w) s = endEncStep (encRep w v s.encW) s := by
  cases w <;> rfl

theorem encRep_rep {w : Width} {xs : List (BitVec w.bits)} (h : xs.length ≤ 255) (k : EncWork) :
    encRep w (.rep w xs) k = put (fieldBytes (.rep w xs)) k :=
  (if_pos rfl).trans (if_neg (by omega))

theorem encRep_tooMany {w : Width} {xs : List (BitVec w.bits)} (h : 255 < xs.length) (k : EncWork) :
    encRep w (.rep w xs) k = none := (if_pos rfl).trans (if_pos h)

theorem encRep_other {w : Width} {v : FieldVal} (h : ∀ xs : List (BitVec w.bits), v ≠ .rep w xs)
    (k : EncWork) : encRep w v k = none := by
  cases v with
  | rep w' xs => exact if_neg (by rintro rfl; exact h xs rfl)
  | scalar _ _ | cstr _ | raw _ => rfl

/-- Settles O24: the count byte holds up to 255, and the elements follow it one by one. -/
theorem repeatedStepsWriteACountAndTheElements :
    Obligations.RepeatedStepsWriteACountAndTheElements := by
  unfold Obligations.RepeatedStepsWriteACountAndTheElements
  intro w v s
  rw [exec_encRepInstr]
  refine ⟨?rep, fun hne => by rw [encRep_other hne, endEncStep_none]⟩
  rintro xs rfl
  refine ⟨fun hmany hroom => ?_, fun hbad => ?_⟩
  · rw [encRep_rep hmany]
    exact endEncStep_field (by rw [fieldSize]; omega)
  · by_cases hmany : xs.length ≤ 255
    · rw [encRep_rep hmany]
      exact endEncStep_field_full (by rw [fieldSize]; omega)
    · rw [encRep_tooMany (by omega), endEncStep_none]

/-! ### `CC.ENC` (R160) -/

theorem exec_ccEnc (cmd : Command) (m : BitVec 16) (s : State) :
    exec (.ccEnc cmd m) s = .next { s with resp := .bytes (ccEncode s.cfg cmd m.toNat) } := rfl

/-- The walk ends when every value is taken by its character's step and all of them fit (R160). -/
theorem encWalk_of_takes {c : Config} {desc : List Byte} {vs : List FieldVal}
    (h : List.Forall₂ (stepTakes c) desc vs) : ∀ {k : EncWork},
      k.out.length + (vs.map fieldSize).sum ≤ k.maxLen → ∃ k1, encWalk c desc vs k = some k1 := by
  induction h with
  | nil => exact fun _ => ⟨_, rfl⟩
  | @cons ch v desc vs htakes _ ih =>
    intro k hroom
    rw [List.map_cons, List.sum_cons] at hroom
    have hput : put (fieldBytes v) k = some (fieldPut v k) := put_fieldBytes (by omega)
    obtain ⟨k1, hwalk⟩ := ih (k := fieldPut v k)
      (by rw [fieldPut_out_length, Nat.add_assoc]; exact hroom)
    exact ⟨k1, by rw [encWalk, encStep_of_takes htakes, hput]; exact hwalk⟩

/-- A walk that ends has given every value to a step that takes it, as many values as characters (R160). -/
theorem takes_of_encWalk {c : Config} : ∀ {desc : List Byte} {vs : List FieldVal} {k k1 : EncWork},
    encWalk c desc vs k = some k1 → List.Forall₂ (stepTakes c) desc vs
  | [], [], _, _, _ => .nil
  | ch :: desc, v :: vs, k, k1, h => by
    unfold encWalk at h
    split at h
    · next k2 hstep => exact .cons (stepTakes_of_encStep hstep) (takes_of_encWalk h)
    · cases h

theorem flatMap_fieldBytes_length (vs : List FieldVal) :
    (vs.flatMap fieldBytes).length = (vs.map fieldSize).sum := by
  rw [List.length_flatMap, funext fieldBytes_length]

theorem commandBytes_length_eq (cmd : Command) : (commandBytes cmd).length = encodedSize cmd := by
  rw [commandBytes_length, flatMap_fieldBytes_length, encodedSize]

/-- The command's bytes as R160 and R91 print them. -/
theorem commandBytes_eq (cmd : Command) : commandBytes cmd =
    [cmd.id, cmd.seq, cmd.status] ++ littleEndian 2 (encodedSize cmd) ++
      cmd.fields.flatMap fieldImage := by
  rw [flatMap_fieldImage, littleEndian_eq_leBytes, ← commandBytes_length_eq, commandBytes_length]
  rfl

section Encode

variable {c : Config} {cmd : Command} {m : Nat}

theorem ccEncode_small (h : m < 3) : ccEncode c cmd m = [] := by rw [ccEncode, if_pos h]

theorem ccEncode_ack (hm : 3 ≤ m) (hack : cmd.id = c.idAck) :
    ccEncode c cmd m = [cmd.id, cmd.seq, cmd.status] := by
  rw [ccEncode, if_neg (by omega), if_pos hack]

theorem ccEncode_noDescriptor (hack : cmd.id ≠ c.idAck)
    (h : ∀ desc, cmdEntry c cmd.id ≠ .fields desc) : ccEncode c cmd m = [] := by
  by_contra hne
  obtain ⟨-, hack' | ⟨desc, hdesc, -⟩⟩ := ccEncode_ne_nil_iff.1 hne
  · exact hack hack'
  · exact h desc hdesc

/-- A command other than the acknowledgment encodes exactly when its values are those its descriptor's steps
take and the total fits (R160, R172). -/
theorem ccEncode_ne_nil_iff_takes {desc : List Byte} (hack : cmd.id ≠ c.idAck)
    (hdesc : cmdEntry c cmd.id = .fields desc) : ccEncode c cmd m ≠ [] ↔
      List.Forall₂ (stepTakes c) desc cmd.fields ∧ encodedSize cmd ≤ m := by
  constructor
  · intro hne
    obtain ⟨-, hle⟩ := ccEncode_of_ne_nil hack hne
    obtain ⟨-, hack' | ⟨desc', hdesc', -, k, hwalk⟩⟩ := ccEncode_ne_nil_iff.1 hne
    · exact absurd hack' hack
    · obtain rfl : desc = desc' := TableEntry.fields.inj (hdesc.symm.trans hdesc')
      exact ⟨takes_of_encWalk hwalk, commandBytes_length_eq cmd ▸ hle⟩
  · rintro ⟨htakes, hfit⟩
    have hroom : (encStart cmd m).out.length + (cmd.fields.map fieldSize).sum ≤ m := hfit
    have hfive : 5 ≤ m := (Nat.le_add_right _ _).trans hfit
    exact ccEncode_ne_nil_iff.2 ⟨by omega, .inr ⟨desc, hdesc, hfive, encWalk_of_takes htakes hroom⟩⟩

end Encode

/-- Settles O26: what does not fail is the command's bytes, and what fails is said by the descriptor and the
room. -/
theorem commandEncodeInClosedForm : Obligations.CommandEncodeInClosedForm := by
  unfold Obligations.CommandEncodeInClosedForm
  intro cmd m s
  rw [exec_ccEnc]
  refine ⟨fun h => by rw [ccEncode_small h], fun hm hack => by rw [ccEncode_ack hm hack],
    fun hack h => by rw [ccEncode_noDescriptor hack h],
    fun desc hack hdesc => ⟨fun htakes hfit => ?encodes, fun hbad => ?fails⟩⟩
  case encodes =>
    have hne := (ccEncode_ne_nil_iff_takes hack hdesc).2 ⟨htakes, hfit⟩
    obtain ⟨hbytes, -⟩ := ccEncode_of_ne_nil hack hne
    rw [hbytes, commandBytes_eq]
  case fails =>
    rw [not_not.1 fun hne => hbad ((ccEncode_ne_nil_iff_takes hack hdesc).1 hne)]

/-! ### Characters without a field type (R154, R171) -/

/-- An encode step that takes a value is that of a character with a field type (R171). -/
theorem fieldKind_ne_none_of_takes {c : Config} {ch : Byte} {v : FieldVal} (h : stepTakes c ch v) :
    fieldKind ch ≠ none := by
  cases v with
  | scalar w x | cstr bs => exact ne_of_eq_of_ne h (Option.some_ne_none _)
  | rep w xs | raw bs =>
    obtain ⟨hkind, -⟩ := h
    exact ne_of_eq_of_ne hkind (Option.some_ne_none _)

theorem ccEncode_reserved {c : Config} {cmd : Command} {m : Nat} {desc : List Byte} {ch : Byte}
    (hack : cmd.id ≠ c.idAck) (hdesc : cmdEntry c cmd.id = .fields desc) (hmem : ch ∈ desc)
    (hch : fieldKind ch = none) : ccEncode c cmd m = [] := by
  by_contra hne
  obtain ⟨htakes, -⟩ := (ccEncode_ne_nil_iff_takes hack hdesc).1 hne
  obtain ⟨hkinds, -⟩ := (List.forall₂_and_left _ _).1
    (htakes.imp fun _ _ hv => ⟨fieldKind_ne_none_of_takes hv, hv⟩)
  exact hkinds ch hmem hch

/-- Settles O25: the walk stops at the character unless it stopped before, and no value encodes under it. -/
theorem unknownCharactersFailWhenReached : Obligations.UnknownCharactersFailWhenReached := by
  unfold Obligations.UnknownCharactersFailWhenReached
  refine ⟨fun ch s => ⟨rfl, rfl⟩, fun c before after ch k hch => ?walk,
    fun cmd m s desc ch hack hdesc hmem hch => ?encode⟩
  case walk =>
    obtain ⟨hok, herror⟩ := decWalk_append c (ch :: after) before k
    refine ⟨fun k1 h => ?_, herror⟩
    rw [hok k1 h, decWalk_cons_error (decStep_reserved hch)]
  case encode => rw [exec_ccEnc, ccEncode_reserved hack hdesc hmem hch]

/-! ### The round trip (R173) -/

/-- The walk over a header alone starts at its end (R142, decision D9). -/
theorem walkStart_header : WalkStart [] 3 3 := .inr ⟨rfl, Nat.zero_lt_two⟩

/-- With the cursor at the end of the status report's buffer every scalar is zero-filled (R143). -/
theorem decWalk_zeroFilled {c : Config} : ∀ {ws : List Width} {desc : List Byte} {k : DecWork},
    desc.map fieldKind = ws.map (fun w => some (.scalar w)) → k.id = c.idStatusReport →
    k.cur = k.buf.length →
      ∃ k1, decWalk c desc k = .ok k1 ∧ k1.fields = k.fields ++ ws.map (fun w => FieldVal.scalar w 0)
  | [], [], k, _, _, _ => ⟨k, rfl, by simp⟩
  | w :: ws, ch :: desc, k, hkinds, hid, hcur => by
    rw [List.map_cons, List.map_cons, List.cons.injEq] at hkinds
    obtain ⟨hkind, hkinds⟩ := hkinds
    have hout : k.buf.length < k.cur + w.bytes := by
      have := bytes_pos w
      omega
    have hstep : decStep c ch k = .ok (fieldDone (.scalar w 0) k.buf.length k) := by
      rw [decStep_scalar hkind, decScalar_zeroFilled hout hid]
    obtain ⟨k1, hwalk, hfields⟩ :=
      decWalk_zeroFilled (k := fieldDone (.scalar w 0) k.buf.length k) hkinds hid rfl
    refine ⟨k1, by rw [decWalk_cons_ok hstep, hwalk], ?_⟩
    rw [hfields]
    simp [fieldDone]

section Header

variable {c : Config} {id seq status : Byte}

/-- A header alone, with nothing to read, is a command without fields. -/
theorem ccDecode_header_nil (h : cmdEntry c id = .fields []) :
    ccDecode c [id, seq, status] = .ok { id := id, seq := seq, status := status, fields := [] } :=
  ccDecode_of_walk_ok h walkStart_header rfl

/-- A header alone has no byte of a scalar. -/
theorem ccDecode_header_scalar {ch : Byte} {desc : List Byte} {w : Width}
    (h : cmdEntry c id = .fields (ch :: desc)) (hkind : fieldKind ch = some (.scalar w))
    (hid : id ≠ c.idStatusReport) : ccDecode c [id, seq, status] = .error .charFieldOverflow := by
  have hout : (decStart [id, seq, status] id 3).buf.length <
      (decStart [id, seq, status] id 3).cur + w.bytes := Nat.lt_add_of_pos_right (bytes_pos w)
  refine ccDecode_of_walk_error h walkStart_header (decWalk_cons_error ?_)
  rw [decStep_scalar hkind, decScalar_missing hout hid]

/-- The status report's header alone is a status report of zeros (R143). -/
theorem ccDecode_header_zeroFilled {desc : List Byte} {ws : List Width}
    (h : cmdEntry c id = .fields desc)
    (hkinds : desc.map fieldKind = ws.map (fun w => some (.scalar w))) (hid : id = c.idStatusReport) :
    ccDecode c [id, seq, status] = .ok { id := id, seq := seq, status := status,
                                         fields := ws.map (fun w => FieldVal.scalar w 0) } := by
  obtain ⟨k, hwalk, hfields⟩ := decWalk_zeroFilled (c := c) (k := decStart [id, seq, status] id 3)
    hkinds hid rfl
  rw [ccDecode_of_walk_ok h walkStart_header hwalk, hfields]
  rfl

end Header

/-- Settles O27: a command's bytes decode to it, and the acknowledgment's are a header alone. -/
theorem commandsRoundTripThroughTheCodec : Obligations.CommandsRoundTripThroughTheCodec := by
  unfold Obligations.CommandsRoundTripThroughTheCodec
  intro c cmd m hm hne
  refine ⟨fun htyped hack => ?roundTrip, fun hack => ?ack⟩
  case roundTrip =>
    obtain ⟨hbytes, hle⟩ := ccEncode_of_ne_nil hack hne
    rw [hbytes]
    exact ccDecode_commandBytes htyped (by omega)
  case ack =>
    obtain ⟨hthree, -⟩ := ccEncode_ne_nil_iff.1 hne
    rw [ccEncode_ack hthree hack]
    exact ⟨ccDecode_header_nil,
      fun ch desc w hdesc hkind hid => ccDecode_header_scalar hdesc hkind (hack ▸ hid),
      fun desc ws hdesc hkinds hid => ccDecode_header_zeroFilled hdesc hkinds (hack.trans hid),
      ccDecode_noFields⟩

end Sys2Proof.Proofs
end

section
/-! Proofs of the family 42_scheduler_queue: the number search, the slot scan, the enqueue and its answers,
and the pending requests. -/

namespace Sys2Proof.Proofs

open Sys2Proof Sys2Proof.Machine Sys2Proof.Safety

/-! ### The number `SQ.SEQ` hands out (R183) -/

/-- The search stops some places on, and passes held numbers only (R183). -/
theorem seqSearch_passes_held (s : State) : ∀ (fuel : Nat) (n : Byte), ∃ k ≤ fuel,
    seqSearch s fuel n = n + BitVec.ofNat 8 k ∧ ∀ j < k, seqHeld s (n + BitVec.ofNat 8 j)
  | 0, n => ⟨0, Nat.le_refl 0, by simp [seqSearch], by omega⟩
  | fuel + 1, n => by
    unfold seqSearch
    split
    · next huse =>
      obtain ⟨k, hk, heq, hheld⟩ := seqSearch_passes_held s fuel (n + 1)
      have hshift (j : Nat) : n + BitVec.ofNat 8 (j + 1) = n + 1 + BitVec.ofNat 8 j := by
        rw [Nat.add_comm j 1, BitVec.ofNat_add, ← BitVec.add_assoc]
        rfl
      refine ⟨k + 1, by omega, by rw [heq, hshift], fun j hj => ?_⟩
      cases j with
      | zero => simpa using (seqInUse_iff s n).1 huse
      | succ j => exact hshift j ▸ hheld j (by omega)
    · exact ⟨0, Nat.zero_le _, by simp, by omega⟩

/-- The places of a run shorter than 256 are distinct numbers. -/
theorem add_ofNat_inj {n : Byte} {j k : Nat} (hj : j < 256) (hk : k < 256)
    (h : n + BitVec.ofNat 8 j = n + BitVec.ofNat 8 k) : j = k := by
  bv_omega

/-- A run of held numbers is no longer than there are items to hold them (R183). -/
theorem held_run_le_nonfreeCount {s : State} {n : Byte} {k : Nat} (hk : k ≤ 256)
    (hheld : ∀ j < k, seqHeld s (n + BitVec.ofNat 8 j)) : k ≤ nonfreeCount s := by
  have hdistinct : ((List.range k).map (fun j => n + BitVec.ofNat 8 j)).Nodup :=
    List.nodup_range.map_on (fun x hx y hy =>
      add_ofNat_inj (by have := List.mem_range.1 hx; omega) (by have := List.mem_range.1 hy; omega))
  have hsub : (List.range k).map (fun j => n + BitVec.ofNat 8 j) ⊆
      (slots.filter (fun i => !free s i)).map (fun i => s.cq[i].cmd.seq) := by
    intro m hm
    obtain ⟨j, hj, rfl⟩ := List.mem_map.1 hm
    obtain ⟨i, hi, hseq⟩ := hheld j (List.mem_range.1 hj)
    exact List.mem_map.2 ⟨i, List.mem_filter.2 ⟨mem_slots i, by simpa [free, nonFree] using hi⟩, hseq⟩
  have hle := (List.subperm_of_subset hdistinct hsub).length_le
  rwa [List.length_map, List.length_map, List.length_range, ← List.countP_eq_length_filter] at hle

theorem length_slots : slots.length = 32 := List.length_finRange

theorem nonfreeCount_le (s : State) : nonfreeCount s ≤ 32 :=
  length_slots ▸ List.countP_le_length

theorem nonfreeCount_lt {s : State} {i : Fin 32} (hi : s.cq[i].state = .init) : nonfreeCount s < 32 :=
  length_slots ▸ List.countP_lt_length_iff.2 ⟨i, mem_slots i, by rw [(free_iff s i).2 hi]; rfl⟩

/-- Settles O28: each increment of the search leaves behind a number that an item of its own holds. -/
theorem sequenceAllocationSkipsHeldNumbers : Obligations.SequenceAllocationSkipsHeldNumbers := by
  unfold Obligations.SequenceAllocationSkipsHeldNumbers
  intro s
  obtain ⟨k, hk, heq, hheld⟩ := seqSearch_passes_held s 255 (s.seqCtr + 1)
  have hrun : k ≤ nonfreeCount s := held_run_le_nonfreeCount (by omega) hheld
  exact ⟨nextSeq s, k, rfl, heq, not_seqHeld_nextSeq s, hheld, hrun.trans (nonfreeCount_le s),
    fun ⟨i, hi⟩ => Nat.le_of_lt_succ (hrun.trans_lt (nonfreeCount_lt hi))⟩

/-! ### The first free slot (R182) -/

theorem length_slotsFrom (p : Fin 32) : (slotsFrom p).length = 32 := by
  rw [slotsFrom, List.length_map, length_slots]

theorem getElem_slotsFrom (p : Fin 32) {m : Nat} (h : m < (slotsFrom p).length) :
    (slotsFrom p)[m] = p + Fin.ofNat 32 m := by
  rw [length_slotsFrom] at h
  have hm : (⟨m, h⟩ : Fin 32) = Fin.ofNat 32 m := Fin.ext (Nat.mod_eq_of_lt h).symm
  simp only [slotsFrom, slots, List.getElem_map, List.getElem_finRange, Fin.cast_mk, hm]

/-- A scan finds the first slot from its start on that has the property (R182, R208). -/
theorem find?_slotsFrom_eq_some_iff {p j : Fin 32} {good : Fin 32 → Bool} :
    (slotsFrom p).find? good = some j ↔ firstFrom p j (fun i => good i = true) := by
  rw [List.find?_eq_some_iff_getElem]
  constructor
  · rintro ⟨hj, m, hm, hat, hbefore⟩
    rw [getElem_slotsFrom] at hat
    refine ⟨m, by rwa [length_slotsFrom] at hm, hat.symm, hj, fun k hk => ?_⟩
    simpa [getElem_slotsFrom] using hbefore k hk
  · rintro ⟨m, hm, hat, hj, hbefore⟩
    have hlen : m < (slotsFrom p).length := by rwa [length_slotsFrom]
    refine ⟨hj, m, hlen, by rw [getElem_slotsFrom, hat], fun k hk => ?_⟩
    simpa [getElem_slotsFrom] using hbefore k hk

theorem findFree_eq_some_iff {s : State} {j : Fin 32} :
    findFree s = some j ↔ firstFrom s.wrPtr j (fun i => s.cq[i].state = .init) := by
  simp only [findFree, find?_slotsFrom_eq_some_iff, free_iff]

theorem findFree_eq_none_iff {s : State} : findFree s = none ↔ ∀ i : Fin 32, nonFree s i := by
  refine ⟨findFree_none s, fun h => List.find?_eq_none.2 (fun i _ => ?_)⟩
  rw [free_iff]
  exact h i

/-! ### The enqueue (R185) -/

theorem wasIdle_iff (s : State) : wasIdle s = true ↔
    (∀ i : Fin 32, s.cq[i].state ≠ .waitSend) ∧ inflight s < 2 := by
  simp [wasIdle, anyWaitSend, window]

theorem encodes_iff (s : State) (cmd : Command) : encodes s cmd = true ↔
    ccEncode s.cfg { cmd with seq := 0 } s.cfg.txMax ≠ [] := by
  simp [encodes]

theorem seqGiven_iff {s : State} {n : Byte} : seqGiven s n ↔ nextSeq s = n :=
  ⟨fun h => congrArg State.seqCtr (Host.Outcome.next.inj h), fun h => h ▸ rfl⟩

theorem enqWrite_eq_itemCreated (j : Fin 32) (cmd : Command) (target : Option Dest) (now : Time)
    (s : State) : enqWrite j cmd target now s = itemCreated j (nextSeq s) cmd target now s := by
  simp only [enqWrite_eq, itemCreated, newItem, wasIdle_iff]

section EnqCore

variable {s : State} {cmd : Command} {target : Option Dest} {now : Time} {j : Fin 32}

theorem enqCore_of_full (hfull : ∀ i : Fin 32, nonFree s i) :
    enqCore cmd target now s = (s, .error .queueFull) := by
  simp only [enqCore, findFree_eq_none_iff.2 hfull]

theorem enqCore_of_not_encodes (hj : firstFrom s.wrPtr j (fun i => s.cq[i].state = .init))
    (henc : ccEncode s.cfg { cmd with seq := 0 } s.cfg.txMax = []) :
    enqCore cmd target now s = (s, .error .rejected) := by
  have hno : ¬ encodes s cmd = true := fun h => (encodes_iff s cmd).1 h henc
  simp only [enqCore, findFree_eq_some_iff.2 hj, if_neg hno]

theorem enqCore_of_encodes (hj : firstFrom s.wrPtr j (fun i => s.cq[i].state = .init))
    (henc : ccEncode s.cfg { cmd with seq := 0 } s.cfg.txMax ≠ []) :
    enqCore cmd target now s = (itemCreated j (nextSeq s) cmd target now s, .ok j) := by
  simp only [enqCore, findFree_eq_some_iff.2 hj, if_pos ((encodes_iff s cmd).2 henc),
    enqWrite_eq_itemCreated]

end EnqCore

theorem all_nonFree_or_first (s : State) : (∀ i : Fin 32, nonFree s i) ∨
    ∃ j : Fin 32, firstFrom s.wrPtr j (fun i => s.cq[i].state = .init) := by
  cases hfind : findFree s with
  | none => exact .inl (findFree_eq_none_iff.1 hfind)
  | some j => exact .inr ⟨j, findFree_eq_some_iff.1 hfind⟩

/-- Settles O29, case by case of the slot scan and of the admission test. -/
theorem enqueueCoreCreatesOneItem : Obligations.EnqueueCoreCreatesOneItem := by
  unfold Obligations.EnqueueCoreCreatesOneItem
  intro s cmd target now
  refine ⟨enqCore_of_full, fun j hj => ⟨enqCore_of_not_encodes hj, fun n henc hn => ?_⟩,
    all_nonFree_or_first s⟩
  rw [enqCore_of_encodes hj henc, seqGiven_iff.1 hn]

/-! ### `SQ.ENQ` (R184, R186) -/

section SqEnq

variable {s : State} {cmd : Command} {x : Nat} {now : Time} {j : Fin 32}

theorem exec_sqEnq (cmd : Command) (x : Nat) (now : Time) (s : State) :
    exec (.sqEnq cmd x now) s = execSqEnq cmd x now s := rfl

theorem exec_sqEnq_down (hdown : s.linkUp = false) :
    exec (.sqEnq cmd x now) s = .next (respond (.err .disconnected) s) := by
  rw [exec_sqEnq, execSqEnq, if_neg (Bool.not_eq_true _ ▸ hdown)]

theorem exec_sqEnq_full (hup : s.linkUp = true) (hfull : ∀ i : Fin 32, nonFree s i) :
    exec (.sqEnq cmd x now) s = .next (respond (.err .queueFull) s) := by
  rw [exec_sqEnq, execSqEnq, if_pos hup, enqCore_of_full hfull]
  rfl

theorem exec_sqEnq_rejected (hup : s.linkUp = true)
    (hj : firstFrom s.wrPtr j (fun i => s.cq[i].state = .init))
    (henc : ccEncode s.cfg { cmd with seq := 0 } s.cfg.txMax = []) :
    exec (.sqEnq cmd x now) s = .next
      (respond (.err .rejected) (emit (.done (.ext (x % 2 ^ s.cfg.targetW)) .rejected none) s)) := by
  rw [exec_sqEnq, execSqEnq, if_pos hup, enqCore_of_not_encodes hj henc]
  rfl

theorem exec_sqEnq_created (hup : s.linkUp = true)
    (hj : firstFrom s.wrPtr j (fun i => s.cq[i].state = .init))
    (henc : ccEncode s.cfg { cmd with seq := 0 } s.cfg.txMax ≠ []) :
    exec (.sqEnq cmd x now) s = .next (respond (.okSlot j)
      (itemCreated j (nextSeq s) cmd (some (.ext (x % 2 ^ s.cfg.targetW))) now s)) := by
  rw [exec_sqEnq, execSqEnq, if_pos hup, enqCore_of_encodes hj henc]
  rfl

end SqEnq

/-- Settles O30, one answer of `SQ.ENQ` after the other. -/
theorem enqueueTestsLinkThenSlotThenEncoding : Obligations.EnqueueTestsLinkThenSlotThenEncoding := by
  unfold Obligations.EnqueueTestsLinkThenSlotThenEncoding
  intro s cmd t now
  refine ⟨exec_sqEnq_down, fun hup => ⟨exec_sqEnq_full hup, fun j hj =>
    ⟨exec_sqEnq_rejected hup hj, fun n henc hn => ?_⟩⟩⟩
  rw [exec_sqEnq_created hup hj henc, seqGiven_iff.1 hn]
  rfl

/-- Every answer of `SQ.ENQ` with the test that leads to it (R184). -/
theorem exec_sqEnq_cases (cmd : Command) (x : Nat) (now : Time) (s : State) :
    (s.linkUp = false ∧
      exec (.sqEnq cmd x now) s = .next (respond (.err .disconnected) s)) ∨
    (s.linkUp = true ∧ (∀ i : Fin 32, nonFree s i) ∧
      exec (.sqEnq cmd x now) s = .next (respond (.err .queueFull) s)) ∨
    (s.linkUp = true ∧ ∃ j : Fin 32, s.cq[j].state = .init ∧
      ((ccEncode s.cfg { cmd with seq := 0 } s.cfg.txMax = [] ∧
        exec (.sqEnq cmd x now) s = .next (respond (.err .rejected)
          (emit (.done (.ext (x % 2 ^ s.cfg.targetW)) .rejected none) s))) ∨
      (ccEncode s.cfg { cmd with seq := 0 } s.cfg.txMax ≠ [] ∧
        exec (.sqEnq cmd x now) s = .next (respond (.okSlot j)
          (itemCreated j (nextSeq s) cmd (some (.ext (x % 2 ^ s.cfg.targetW))) now s))))) := by
  cases hlink : s.linkUp with
  | false => exact .inl ⟨rfl, exec_sqEnq_down hlink⟩
  | true =>
    obtain hfull | ⟨j, hj⟩ := all_nonFree_or_first s
    · exact .inr (.inl ⟨rfl, hfull, exec_sqEnq_full hlink hfull⟩)
    · refine .inr (.inr ⟨rfl, j, findFree_some s (findFree_eq_some_iff.2 hj), ?_⟩)
      by_cases henc : ccEncode s.cfg { cmd with seq := 0 } s.cfg.txMax = []
      · exact .inl ⟨henc, exec_sqEnq_rejected hlink hj henc⟩
      · exact .inr ⟨henc, exec_sqEnq_created hlink hj henc⟩

/-! ### `PQ.PUSH` (R188) -/

theorem exec_pqPush (x : Nat) (s : State) : exec (.pqPush x) s = execPqPush x s := rfl

theorem exec_pqPush_down {s : State} {x : Nat} (hdown : s.linkUp = false) :
    exec (.pqPush x) s = .next (respond (.err .disconnected) s) := by
  rw [exec_pqPush, execPqPush, if_neg (Bool.not_eq_true _ ▸ hdown)]

theorem exec_pqPush_full {s : State} {x : Nat} (hup : s.linkUp = true) (hfull : s.pqCnt = 16) :
    exec (.pqPush x) s = .next (respond (.err .pendingQueueFull) s) := by
  rw [exec_pqPush, execPqPush, if_pos hup, if_pos (show s.pqCnt = pqCap from hfull)]

theorem exec_pqPush_room {s : State} {x : Nat} (hup : s.linkUp = true) (hroom : s.pqCnt ≠ 16) :
    exec (.pqPush x) s = .next (respond .ok (pqPut (x % 2 ^ s.cfg.reqIdW) s)) := by
  rw [exec_pqPush, execPqPush, if_pos hup, if_neg (show s.pqCnt ≠ pqCap from hroom), reqIdPort]

/-- Settles O31: the four answers of `SQ.ENQ`, of which one is `Ok`. -/
theorem backpressureIsImmediate : Obligations.BackpressureIsImmediate := by
  unfold Obligations.BackpressureIsImmediate
  refine ⟨fun s cmd t now => ?_, fun s r => exec_pqPush_full⟩
  obtain ⟨hdown, h⟩ | ⟨_, hfull, h⟩ | ⟨hup, j, hj, ⟨henc, h⟩ | ⟨henc, h⟩⟩ :=
    exec_sqEnq_cases cmd t now s
  · exact ⟨_, h, by simp [hdown], by simp [hdown]⟩
  · exact ⟨_, h, ⟨fun ⟨_, hok⟩ => (nomatch hok), fun ⟨_, ⟨i, hi⟩, _⟩ => absurd hi (hfull i)⟩,
      fun _ _ => rfl⟩
  · exact ⟨_, h, ⟨fun ⟨_, hok⟩ => (nomatch hok), fun ⟨_, _, hne⟩ => absurd henc hne⟩,
      fun _ hall => absurd hj (hall j)⟩
  · exact ⟨_, h, ⟨fun _ => ⟨hup, ⟨j, hj⟩, henc⟩, fun _ => ⟨j, rfl⟩⟩,
      fun _ hall => absurd hj (hall j)⟩

theorem pqIndex_val (s : State) (k : Nat) : (pqIndex s k).val = (s.pqRd.val + k) % 16 := by
  simp [pqIndex, Fin.val_add]

/-- The entry goes into one cell, and the others keep theirs (R188). -/
theorem pqPut_at (r : Nat) (s : State) (k : Fin 16) :
    (pqPut r s).pq[k] = if k = pqIndex s s.pqCnt then r else s.pq[k] := by
  simp only [pqPut, Fin.getElem_fin, Vector.getElem_set, Fin.ext_iff, eq_comm]

/-- An entry is appended behind the last one (R188). -/
theorem pqContent_pqPut (r : Nat) {s : State} (hroom : s.pqCnt < 16) :
    pqContent (pqPut r s) = pqContent s ++ [r] := by
  have hkeep : ∀ k ∈ List.range s.pqCnt,
      (pqPut r s).pq[pqIndex (pqPut r s) k] = s.pq[pqIndex s k] := by
    intro k hk
    have hlt := List.mem_range.1 hk
    rw [pqPut_at, if_neg]
    · rfl
    · intro heq
      have hval : (pqIndex s k).val = (pqIndex s s.pqCnt).val := congrArg Fin.val heq
      rw [pqIndex_val, pqIndex_val] at hval
      omega
  have hlast : (pqPut r s).pq[pqIndex (pqPut r s) s.pqCnt] = r := by
    rw [pqPut_at]
    exact if_pos rfl
  calc pqContent (pqPut r s)
      = (List.range (s.pqCnt + 1)).map (fun k => (pqPut r s).pq[pqIndex (pqPut r s) k]) := rfl
    _ = pqContent s ++ [r] := by
        rw [List.range_succ, List.map_append, List.map_congr_left hkeep, List.map_singleton, hlast]
        rfl

/-- Settles O32, by the one cell that a push writes. -/
theorem pendingPushAppendsTheIdentifier : Obligations.PendingPushAppendsTheIdentifier := by
  unfold Obligations.PendingPushAppendsTheIdentifier
  refine fun s r => ⟨fun hup hroom => ?_, exec_pqPush_full, exec_pqPush_down⟩
  have hcell (k : Fin 16) : k = pqIndex s s.pqCnt ↔ k.val = (s.pqRd.val + s.pqCnt) % 16 := by
    rw [← pqIndex_val, Fin.ext_iff]
  refine ⟨(pqPut (r % 2 ^ s.cfg.reqIdW) s).pq, exec_pqPush_room hup hroom.ne, pqContent_pqPut _ hroom,
    fun k hk => ?_, fun k hk => ?_⟩
  · rw [pqPut_at, if_pos ((hcell k).2 hk)]
  · rw [pqPut_at, if_neg (hk ∘ (hcell k).1)]

end Sys2Proof.Proofs
end

section
/-! Proofs of the family 42_scheduler_queue: the loops over the slots, what kill leaves, and the moves of the
items' states. -/

namespace Sys2Proof.Proofs

open Sys2Proof Sys2Proof.Machine Sys2Proof.Safety

/-! ### The loops over the slots (R190, R201) -/

@[simp] theorem emitDone_cq (target : Option Dest) (code : Completion) (rsp : Option Command)
    (s : State) : (emitDone target code rsp s).cq = s.cq := by rw [emitDone_eq]

@[simp] theorem countFailure_cq (s : State) : (countFailure s).cq = s.cq := by rw [countFailure_eq]

/-- A loop whose turn at a slot rewrites the item there, by the parameters alone, rewrites the item of every
slot it visits. -/
theorem foldl_slot_at {f : State → Fin 32 → State} {g : Config → QueueItem → QueueItem}
    (hcfg : ∀ s i, (f s i).cfg = s.cfg)
    (hat : ∀ s (i j : Fin 32), (f s i).cq[j] = if i = j then g s.cfg s.cq[j] else s.cq[j])
    {l : List (Fin 32)} (hl : l.Nodup) (s : State) (j : Fin 32) :
    (l.foldl f s).cq[j] = if j ∈ l then g s.cfg s.cq[j] else s.cq[j] := by
  induction l generalizing s with
  | nil => simp
  | cons i l ih =>
    obtain ⟨hi, hl⟩ := List.nodup_cons.1 hl
    rw [List.foldl_cons, ih hl, hat, hcfg]
    by_cases hij : i = j
    · subst hij
      simp [hi]
    · simp [hij, Ne.symm hij]

theorem nodup_slots : slots.Nodup := List.nodup_finRange 32

/-- The item is no longer in the queue; its other fields keep their values (R31). -/
def freedItem (q : QueueItem) : QueueItem := { q with state := .init }

theorem freedItem_of_free {q : QueueItem} (h : q.state = .init) : freedItem q = q := by
  unfold freedItem
  rw [← h]

theorem killSlot_at (s : State) (i j : Fin 32) :
    (killSlot s i).cq[j] = if i = j then freedItem s.cq[j] else s.cq[j] := by
  unfold killSlot
  split
  · next hfree =>
    split
    · next hij => rw [← hij, freedItem_of_free ((free_iff s i).1 hfree)]
    · rfl
  · rw [setItemState_at, emitDone_cq]
    rfl

theorem cfg_of_hideQueue {s t : State} (h : hideQueue t = hideQueue s) : t.cfg = s.cfg := by
  have hcfg : (hideQueue t).cfg = (hideQueue s).cfg := congrArg State.cfg h
  exact hcfg

theorem killSlot_cfg (s : State) (i : Fin 32) : (killSlot s i).cfg = s.cfg :=
  cfg_of_hideQueue (killSlot_frame s i).1

/-- Kill frees the item of every slot and keeps the other fields (R190). -/
theorem killFold_at (s : State) (j : Fin 32) :
    (slots.foldl killSlot s).cq[j] = freedItem s.cq[j] := by
  rw [foldl_slot_at (g := fun _ => freedItem) killSlot_cfg killSlot_at nodup_slots, if_pos (mem_slots j)]

theorem expireItem_at (s : State) (i j : Fin 32) :
    (expireItem i s).cq[j] = if i = j then freedItem s.cq[j] else s.cq[j] := by
  have hcq : (expireItem i s).cq = (setItemState i .init s).cq := by
    rw [expireItem, countFailure_cq, emitDone_cq]
  rw [hcq]
  exact setItemState_at s i j .init

theorem sweepSlot_at (now : Time) (s : State) (i j : Fin 32) :
    (sweepSlot now s i).cq[j] = if i = j then sweptItem now s.cfg s.cq[j] else s.cq[j] := by
  have hout : timedOut now s i = true ↔
      s.cq[i].state = .waitConfirm ∧ (now - s.cq[i].tTx).toNat > s.cfg.tTimeout := by
    simp [timedOut, age]
  by_cases hij : i = j
  · subst hij
    rw [if_pos rfl, sweepSlot, sweptItem]
    simp only [hout]
    split
    · split
      · exact setItem_at_same s i _
      · exact (expireItem_at s i i).trans (if_pos rfl)
    · rfl
  · rw [if_neg hij, sweepSlot]
    split
    · split
      · exact setItem_at_other s hij _
      · exact (expireItem_at s i j).trans (if_neg hij)
    · rfl

theorem sweepSlot_cfg (now : Time) (s : State) (i : Fin 32) : (sweepSlot now s i).cfg = s.cfg :=
  cfg_of_hideQueue (sweepSlot_frame s now i)

/-- The sweep treats the item of every slot alike (R201 to R203). -/
theorem sweep_at (now : Time) (s : State) (j : Fin 32) :
    (sweep now s).cq[j] = sweptItem now s.cfg s.cq[j] := by
  rw [sweep, foldl_slot_at (sweepSlot_cfg now) (sweepSlot_at now) nodup_slots, if_pos (mem_slots j)]

/-! ### `SQ.KILL` (R190) -/

/-- What a turn of kill's slot loop emits for the item it finds. -/
theorem killSlot_ev (s : State) (i : Fin 32) : (killSlot s i).ev =
    s.ev ++ (([s.cq[i]].filter (fun q => q.state != .init)).filterMap (doneOf .disconnected)) := by
  unfold killSlot
  split
  · next hfree =>
    rw [free_iff] at hfree
    generalize s.cq[i] = q at hfree
    simp [hfree]
  · next hheld =>
    rw [free_iff] at hheld
    rw [setItemState_ev, emitDone_eq]
    generalize s.cq[i] = q at hheld
    cases htarget : q.target <;> simp [hheld, doneOf, htarget]

/-- Kill emits the `Done` events in the order of the slots it visits (R190). -/
theorem killFold_ev {l : List (Fin 32)} (hl : l.Nodup) (s : State) : (l.foldl killSlot s).ev =
    s.ev ++ (((l.map (fun i => s.cq[i])).filter (fun q => q.state != .init)).filterMap
      (doneOf .disconnected)) := by
  induction l generalizing s with
  | nil => simp
  | cons i l ih =>
    obtain ⟨hi, hl⟩ := List.nodup_cons.1 hl
    have hrest : l.map (fun j => (killSlot s i).cq[j]) = l.map (fun j => s.cq[j]) :=
      List.map_congr_left (fun j hj => by
        have hij : i ≠ j := fun hij => hi (hij.symm ▸ hj)
        rw [killSlot_at, if_neg hij])
    rw [List.foldl_cons, ih hl, hrest, killSlot_ev, List.append_assoc, ← List.filterMap_append,
      ← List.filter_append, List.singleton_append, List.map_cons]

theorem items_eq_map_slots (s : State) : items s = slots.map (fun i => s.cq[i]) := by
  apply List.ext_getElem
  · simp [items, slots]
  · intro n _ _
    simp [items, slots]

/-- A state that differs in what `hideQueue` hides only is known by those fields. -/
theorem eq_of_hideQueue {s t : State} (h : hideQueue t = hideQueue s) :
    t = { s with cq := t.cq, failCtr := t.failCtr, ev := t.ev } := by
  cases s
  cases t
  simp only [hideQueue, State.mk.injEq] at h ⊢
  simp only [h, and_self]

/-- The slot loop of kill frees every item, and reports those that were there (R190). -/
theorem killFold_eq (s : State) : ∃ cq : Vector QueueItem 32,
    slots.foldl killSlot s = { s with
      cq := cq
      ev := s.ev ++
        ((items s).filter (fun q => q.state != .init)).filterMap (doneOf .disconnected) } ∧
    ∀ i : Fin 32, cq[i] = freedItem s.cq[i] := by
  obtain ⟨hframe, hfail⟩ := killFold_frame slots s
  have hev := killFold_ev nodup_slots s
  have hat := killFold_at s
  rw [← items_eq_map_slots] at hev
  generalize slots.foldl killSlot s = t at *
  exact ⟨t.cq, (eq_of_hideQueue hframe).trans (by rw [hfail, hev]), hat⟩

/-- Settles O33: the slot loop frees and reports each item in turn, then the requests are reported. -/
theorem killFailsEverythingInOrder : Obligations.KillFailsEverythingInOrder := by
  unfold Obligations.KillFailsEverythingInOrder
  intro s
  obtain ⟨cq, hfold, hat⟩ := killFold_eq s
  refine ⟨cq, ?_, hat⟩
  change Host.Outcome.next (respond .none (killAll s)) = _
  rw [killAll_eq, hfold]
  rfl

end Sys2Proof.Proofs
end

section
/-! Proofs of the family 42_scheduler_queue: the moves of the items' states (R180). -/

namespace Sys2Proof.Proofs

open Sys2Proof Sys2Proof.Machine Sys2Proof.Safety

/-! ### Operations outside the Scheduler -/

/-- The operations that reach the CommandQueue, the pending requests or the events. -/
def schedules : Instr → Bool
  | .sqEnq _ _ _ | .pqPush _ | .sqKill | .sqTick _ _ _ | .tickSweep _ | .tickGen _ _ | .tickSend _ _
  | .sqDisp _ _ | .rxByte _ _ | .evConn _ | .evDisc _ | .sysReset => true
  | _ => false

/-- What the Scheduler holds and has reported: the items, the pending requests, the events. -/
def schedulerView (s : State) : Vector QueueItem 32 × Vector Nat 16 × Fin 16 × Nat × List Event :=
  (s.cq, s.pq, s.pqRd, s.pqCnt, s.ev)

theorem schedulerView_eq_iff {s t : State} : schedulerView t = schedulerView s ↔
    t.cq = s.cq ∧ t.pq = s.pq ∧ t.pqRd = s.pqRd ∧ t.pqCnt = s.pqCnt ∧ t.ev = s.ev := by
  simp only [schedulerView, Prod.mk.injEq]

theorem schedulerView_of_sameButReceiver {s t : State} (h : sameButReceiver s t) :
    schedulerView t = schedulerView s := by
  rw [h]
  rfl

theorem endDecStep_schedulerView {r : Except ParseError DecWork} {s t : State}
    (h : endDecStep r s = .next t) : schedulerView t = schedulerView s := by
  cases r <;> cases h <;> rfl

theorem endEncStep_schedulerView {r : Option EncWork} {s t : State}
    (h : endEncStep r s = .next t) : schedulerView t = schedulerView s := by
  cases r <;> cases h <;> rfl

theorem feedStep_schedulerView {sel : FeedSel} {s t : State} (h : feedStep sel s = .next t) :
    schedulerView t = schedulerView s :=
  schedulerView_of_sameButReceiver (feedStep_sameButReceiver h)

/-- The codecs, the receiver's steps, the number allocation and the register accesses leave what the
Scheduler holds and has reported. -/
theorem exec_schedulerView {i : Instr} {s t : State} (hi : schedules i = false)
    (h : exec i s = .next t) : schedulerView t = schedulerView s := by
  cases i with
  | sqEnq _ _ _ | pqPush _ | sqKill | sqTick _ _ _ | tickSweep _ | tickGen _ _ | tickSend _ _
  | sqDisp _ _ | rxByte _ _ | evConn _ | evDisc _ | sysReset => cases hi
  | feedResync e => exact feedStep_schedulerView (sel := .resync e) h
  | feedSkip e b => exact feedStep_schedulerView (sel := .skip e b) h
  | feedFlush => exact feedStep_schedulerView (sel := .flush) h
  | feedEnd => exact feedStep_schedulerView (sel := .endFrame) h
  | feedEsc e => exact feedStep_schedulerView (sel := .esc e) h
  | feedTmark => exact feedStep_schedulerView (sel := .tmark) h
  | feedTesc => exact feedStep_schedulerView (sel := .tesc) h
  | feedBadesc b => exact feedStep_schedulerView (sel := .badesc b) h
  | feedData b => exact feedStep_schedulerView (sel := .data b) h
  | decS1 | decS2 | decS4 | decS8 | decStr | decR1 | decR2 | decR4 | decR8 | decRaw =>
    exact endDecStep_schedulerView h
  | decBad _ => exact endDecStep_schedulerView (r := .error .unknownField) h
  | encS1 _ | encS2 _ | encS4 _ | encS8 _ | encStr _ | encR1 _ | encR2 _ | encR4 _ | encR8 _ | encRaw _ =>
    exact endEncStep_schedulerView h
  | encBad _ => exact endEncStep_schedulerView (r := none) h
  | fcEnc _ | ccEnc _ _ | sqSeq | tickRearm _ | sysClrdiag | sysRdcsr _ =>
    obtain rfl := Host.Outcome.next.inj h
    rfl
  | ccDec buf =>
    obtain ⟨r, rfl⟩ := execCcDec_cases h
    rfl

/-- R180 lets an operation outside the Scheduler move no item. -/
theorem mayMove_refl {i : Instr} (hi : schedules i = false) (a : ItemState) : mayMove i a a := by
  cases i with
  | sqEnq _ _ _ | pqPush _ | sqKill | sqTick _ _ _ | tickSweep _ | tickGen _ _ | tickSend _ _
  | sqDisp _ _ | rxByte _ _ | evConn _ | evDisc _ | sysReset => cases hi
  | _ => rfl

/-! ### The moves of the named operations -/

/-- Every slot's state makes a move of `R`, and an item that was there keeps its command and target (R31). -/
structure SlotsMove (R : ItemState → ItemState → Prop) (s t : State) : Prop where
  state : ∀ j : Fin 32, R s.cq[j].state t.cq[j].state
  keeps : ∀ j : Fin 32, nonFree s j → t.cq[j].cmd = s.cq[j].cmd ∧ t.cq[j].target = s.cq[j].target

namespace SlotsMove

variable {R : ItemState → ItemState → Prop} {s t : State}

theorem of_cq_eq (hR : ∀ a, R a a) (h : t.cq = s.cq) : SlotsMove R s t := by
  constructor <;> intro j <;> rw [h]
  · exact hR _
  · exact fun _ => ⟨rfl, rfl⟩

/-- Only the items matter. -/
theorem congr {s' t' : State} (h : SlotsMove R s t) (hs : s'.cq = s.cq) (ht : t'.cq = t.cq) :
    SlotsMove R s' t' := by
  constructor <;> intro j
  · rw [hs, ht]
    exact h.state j
  · unfold nonFree
    rw [hs, ht]
    exact h.keeps j

/-- One slot is written, with a move of `R`. -/
theorem of_setItem {i : Fin 32} {q : QueueItem} (hR : ∀ a, R a a) (hstate : R s.cq[i].state q.state)
    (hkeeps : nonFree s i → q.cmd = s.cq[i].cmd ∧ q.target = s.cq[i].target)
    (h : t.cq = (setItem i q s).cq) : SlotsMove R s t := by
  constructor <;> intro j <;> obtain ⟨rfl, hj⟩ | ⟨_, hj⟩ := item_of_setItem h j <;> rw [hj]
  · exact hstate
  · exact hR _
  · exact hkeeps
  · exact fun _ => ⟨rfl, rfl⟩

end SlotsMove

/-- The only move of an enqueue: a free slot takes an item that waits to be sent (R180, R185). -/
def createMove (a b : ItemState) : Prop := a = b ∨ (a = .init ∧ b = .waitSend)

/-- The move of the send step (R180, R208). -/
def sendMove (a b : ItemState) : Prop := a = b ∨ (a = .waitSend ∧ b = .waitConfirm)

/-- The moves of the sweep (R180, R201). -/
def sweepMove (a b : ItemState) : Prop := a = b ∨ (a = .waitConfirm ∧ (b = .waitSend ∨ b = .init))

/-- The move of a confirmation (R180, R211). -/
def confirmMove (a b : ItemState) : Prop := a = b ∨ (a = .waitConfirm ∧ b = .init)

theorem createMove_enqCore (cmd : Command) (target : Option Dest) (now : Time) (s : State) :
    SlotsMove createMove s (enqCore cmd target now s).1 := by
  obtain ⟨_, h⟩ | ⟨j, _, _, h⟩ | ⟨j, hj, _, h⟩ := enqCore_cases s cmd target now <;> rw [h]
  · exact .of_cq_eq (fun _ => .inl rfl) rfl
  · exact .of_cq_eq (fun _ => .inl rfl) rfl
  · have hfree := findFree_some s hj
    rw [enqWrite_eq]
    exact .of_setItem (i := j) (fun _ => .inl rfl) (.inr ⟨hfree, rfl⟩) (fun hheld => absurd hfree hheld) rfl

theorem createMove_generate (now : Time) (answer : Option Command) (s : State) :
    SlotsMove createMove s (generate now answer s) := by
  obtain h | ⟨cmd, h⟩ | h := generate_cases now answer s
  · exact .of_cq_eq (fun _ => .inl rfl) (by rw [h])
  · exact h ▸ createMove_enqCore cmd none now s
  · obtain hb | ⟨cmd, hb⟩ := genBulk_cases now answer s <;> rw [h, hb]
    · exact .of_cq_eq (fun _ => .inl rfl) rfl
    · exact (createMove_enqCore cmd (some (.bulk s.pq[s.pqRd])) now (pqPop s)).congr rfl rfl

theorem sendMove_sendOne (now : Time) (txOk : Bool) (s : State) :
    SlotsMove sendMove s (sendOne now txOk s) := by
  obtain h | ⟨j, _, hj, _, _, h⟩ := sendOne_cases s now txOk <;> rw [h]
  · exact .of_cq_eq (fun _ => .inl rfl) rfl
  · exact .of_setItem (q := { s.cq[j] with state := .waitConfirm, tTx := now }) (fun _ => .inl rfl)
      (.inr ⟨hj, rfl⟩) (fun _ => ⟨rfl, rfl⟩) rfl

theorem sweepMove_sweptItem (now : Time) (c : Config) (q : QueueItem) :
    sweepMove q.state (sweptItem now c q).state ∧ (sweptItem now c q).cmd = q.cmd ∧
      (sweptItem now c q).target = q.target := by
  unfold sweptItem
  split
  · next hout =>
    split
    · exact ⟨.inr ⟨hout.1, .inl rfl⟩, rfl, rfl⟩
    · exact ⟨.inr ⟨hout.1, .inr rfl⟩, rfl, rfl⟩
  · exact ⟨.inl rfl, rfl, rfl⟩

theorem sweepMove_sweep (now : Time) (s : State) : SlotsMove sweepMove s (sweep now s) := by
  constructor <;> intro j <;> rw [sweep_at] <;>
    obtain ⟨hstate, hkeeps⟩ := sweepMove_sweptItem now s.cfg s.cq[j]
  · exact hstate
  · exact fun _ => hkeeps

theorem updateStatus_cq (cmd : Command) (s : State) : (updateStatus cmd s).cq = s.cq := by
  unfold updateStatus
  split
  · rfl
  · split <;> rfl

theorem confirmMove_dispatch (cmd : Command) (now : Time) (s : State) :
    SlotsMove confirmMove s (dispatch cmd now s) := by
  have hcq : (dispatch cmd now s).cq = (confirmMatch cmd now s).cq := updateStatus_cq cmd _
  unfold confirmMatch at hcq
  split at hcq
  · exact .of_cq_eq (fun _ => .inl rfl) hcq
  · next i hfind =>
    rw [emitDone_cq] at hcq
    have hconfirms : confirms cmd s i = true := List.find?_some hfind
    simp only [confirms, Bool.and_eq_true, beq_iff_eq] at hconfirms
    obtain ⟨⟨hwait, -⟩, -⟩ := hconfirms
    exact .of_setItem (q := freedItem s.cq[i]) (fun _ => .inl rfl) (.inr ⟨hwait, rfl⟩)
      (fun _ => ⟨rfl, rfl⟩) hcq

theorem confirmMove_receive (p : List Byte) (now : Time) (s : State) :
    SlotsMove confirmMove s (receive p now s) := by
  obtain ⟨cmd, _, h⟩ | ⟨e, _, h⟩ := receive_cases s p now <;> rw [h]
  · exact confirmMove_dispatch cmd now s
  · exact .of_cq_eq (fun _ => .inl rfl) rfl

theorem confirmMove_execRxByte {b : Byte} {now : Time} {s t : State}
    (h : execRxByte b now s = .next t) : SlotsMove confirmMove s t := by
  obtain rfl | ⟨_, s1, hfeed, ht⟩ := execRxByte_cases h
  · exact .of_cq_eq (fun _ => .inl rfl) rfl
  · obtain ⟨hcq, -⟩ := schedulerView_eq_iff.1
      (schedulerView_of_sameButReceiver (feed_sameButReceiver s hfeed))
    obtain rfl | ⟨p, rfl⟩ := ht
    · exact .of_cq_eq (fun _ => .inl rfl) hcq
    · exact (confirmMove_receive p now s1).congr hcq.symm (respond_cq _ _)

theorem killMove_killAll (s : State) : SlotsMove (fun _ b => b = .init) s (killAll s) := by
  have hat (j : Fin 32) : (killAll s).cq[j] = freedItem s.cq[j] := by
    rw [← killFold_at, killAll_eq]
  constructor <;> intro j <;> rw [hat]
  · rfl
  · exact fun _ => ⟨rfl, rfl⟩

/-- A whole tick does not free an item that waits to be sent: the sweep leaves it, generation leaves it, and
the send step at most puts it into flight (R200). -/
theorem tickBody_keeps_waiting (now : Time) (txOk : Bool) (answer : Option Command) {s : State}
    {j : Fin 32} (hj : s.cq[j].state = .waitSend) :
    (tickBody now txOk answer s).cq[j].state ≠ .init := by
  rw [tickBody, rearm, armTimer_cq]
  have hswept : (sweep now (disarmTimer s)).cq[j].state = .waitSend := by
    obtain heq | ⟨hconfirm, _⟩ := (sweepMove_sweep now (disarmTimer s)).state j
    · exact heq.symm.trans hj
    · exact absurd (hj.symm.trans hconfirm) (by decide)
  have hgenerated : (generate now answer (sweep now (disarmTimer s))).cq[j].state = .waitSend := by
    obtain heq | ⟨hinit, _⟩ := (createMove_generate now answer (sweep now (disarmTimer s))).state j
    · exact heq.symm.trans hswept
    · exact absurd (hswept.symm.trans hinit) (by decide)
  obtain heq | ⟨_, hconfirm⟩ :=
    (sendMove_sendOne now txOk (generate now answer (sweep now (disarmTimer s)))).state j
  · exact fun hinit => absurd ((heq.symm.trans hgenerated).symm.trans hinit) (by decide)
  · exact fun hinit => absurd (hconfirm.symm.trans hinit) (by decide)

/-! ### The moves of every operation (R180) -/

/-- Every operation but a whole tick and a reset: the moves R180 names, and the command and the target of an
item kept. -/
theorem exec_slotsMove {i : Instr} {s t : State}
    (htick : ∀ (now : Time) (txOk : Bool) (answer : Option Command), i ≠ .sqTick now txOk answer)
    (hreset : i ≠ .sysReset) (h : exec i s = .next t) : SlotsMove (mayMove i) s t := by
  cases hi : schedules i with
  | false =>
    obtain ⟨hcq, -⟩ := schedulerView_eq_iff.1 (exec_schedulerView hi h)
    exact .of_cq_eq (mayMove_refl hi) hcq
  | true =>
    cases i with
    | sqTick now txOk answer => exact absurd rfl (htick now txOk answer)
    | sysReset => exact absurd rfl hreset
    | sqEnq cmd x now =>
      obtain ⟨_, rfl⟩ | ⟨_, target, r, rfl | ⟨e, rfl⟩⟩ := execSqEnq_cases h
      · exact .of_cq_eq (fun _ => .inl rfl) rfl
      · exact (createMove_enqCore cmd target now s).congr rfl (respond_cq _ _)
      · exact (createMove_enqCore cmd target now s).congr rfl (respond_cq _ _)
    | pqPush x =>
      obtain ⟨r, rfl⟩ | ⟨_, _, rfl⟩ := execPqPush_cases h
      · exact .of_cq_eq (fun _ => rfl) rfl
      · exact .of_cq_eq (fun _ => rfl) rfl
    | evConn now =>
      obtain rfl | rfl := execEvConn_cases h
      · exact .of_cq_eq (fun _ => rfl) rfl
      · exact .of_cq_eq (fun _ => rfl) rfl
    | tickGen now answer =>
      obtain rfl := Host.Outcome.next.inj h
      exact (createMove_generate now answer s).congr rfl (respond_cq _ _)
    | tickSend now txOk =>
      obtain rfl := Host.Outcome.next.inj h
      exact (sendMove_sendOne now txOk s).congr rfl (respond_cq _ _)
    | tickSweep now =>
      obtain rfl := Host.Outcome.next.inj h
      exact (sweepMove_sweep now s).congr rfl (respond_cq _ _)
    | sqDisp cmd now =>
      obtain rfl := Host.Outcome.next.inj h
      exact (confirmMove_dispatch cmd now s).congr rfl (respond_cq _ _)
    | rxByte b now => exact (confirmMove_execRxByte h).congr rfl rfl
    | sqKill =>
      obtain rfl := Host.Outcome.next.inj h
      exact (killMove_killAll s).congr rfl (respond_cq _ _)
    | evDisc reason =>
      obtain rfl := Host.Outcome.next.inj h
      exact (killMove_killAll (disarmTimer s)).congr rfl (by rw [respond_cq, emit_cq])
    | _ => cases hi

/-- Settles O58: each operation's moves, a tick by its sub-steps and a reset by its empty queue. -/
theorem itemsMoveOnlyAlongTheStateMachine : Obligations.ItemsMoveOnlyAlongTheStateMachine := by
  unfold Obligations.ItemsMoveOnlyAlongTheStateMachine
  intro i s t j h
  by_cases hreset : i = .sysReset
  · subst hreset
    exact ⟨cleared_execSysReset h j, fun _ _ hheld => absurd (cleared_execSysReset h j) hheld⟩
  by_cases htick : ∃ (now : Time) (txOk : Bool) (answer : Option Command), i = .sqTick now txOk answer
  · obtain ⟨now, txOk, answer, rfl⟩ := htick
    refine ⟨fun ⟨hwait, hfreed⟩ => ?_, fun hne => absurd rfl (hne now txOk answer)⟩
    obtain ⟨_, rfl⟩ | rfl := execSqTick_cases h
    · rw [respond_cq] at hfreed
      exact tickBody_keeps_waiting now txOk answer hwait hfreed
    · exact absurd (hwait.symm.trans hfreed) (by decide)
  · push Not at htick
    obtain ⟨hstate, hkeeps⟩ := exec_slotsMove htick hreset h
    exact ⟨hstate j, fun _ hheld _ => hkeeps j hheld⟩

end Sys2Proof.Proofs
end

section
/-! Proofs of the family 42_scheduler_queue: the account of a target, item by item and event by event (R189,
R191). -/

namespace Sys2Proof.Proofs

open Sys2Proof Sys2Proof.Machine Sys2Proof.Safety

/-! ### What enters the account of a target -/

/-- The item is in the queue for the target: a `Done` is owed for it. -/
def openFor (d : Dest) (q : QueueItem) : Bool := decide (q.state ≠ .init ∧ q.target = some d)

/-- The `Done` events for the target in a list of events. -/
def doneCount (d : Dest) (es : List Event) : Nat := es.countP (isDoneFor d)

theorem accounted_eq (d : Dest) (s : State) : accounted d s =
    (items s).countP (openFor d) + (pqContent s).countP (fun r => decide (Dest.bulk r = d)) +
      doneCount d s.ev := rfl

theorem doneCount_append (d : Dest) (es es' : List Event) :
    doneCount d (es ++ es') = doneCount d es + doneCount d es' := List.countP_append

theorem openFor_free {d : Dest} {q : QueueItem} (h : q.state = .init) : openFor d q = false := by
  simp [openFor, h]

theorem openFor_nonFree {d : Dest} {q : QueueItem} (h : q.state ≠ .init) :
    openFor d q = decide (q.target = some d) := by
  simp [openFor, h]

/-- The `Done` of an item's end enters the account of the item's target (R45). -/
theorem doneCount_done (d : Dest) (target : Option Dest) (code : Completion) (rsp : Option Command) :
    doneCount d (target.map (fun d => Event.done d code rsp)).toList =
      (decide (target = some d)).toNat := by
  cases target with
  | none => rfl
  | some d' => by_cases hd : d' = d <;> simp [doneCount, isDoneFor, hd]

/-- The item written to a slot replaces the one it held in the account. -/
theorem items_count_setItem (d : Dest) {s t : State} {i : Fin 32} {q : QueueItem}
    (h : t.cq = (setItem i q s).cq) :
    (items t).countP (openFor d) + (openFor d s.cq[i]).toNat =
      (items s).countP (openFor d) + (openFor d q).toNat := by
  have hlen : i.val < (items s).length := by simp [items]
  have hitems : items t = (items s).set i.val q := by
    rw [items, h]
    exact Vector.toList_set i.isLt
  have hat : (items s)[i.val] = s.cq[i] := Vector.getElem_toList hlen
  have hcounted : openFor d s.cq[i] = true → 0 < (items s).countP (openFor d) := fun hopen =>
    List.countP_pos_iff.2 ⟨s.cq[i], hat ▸ List.getElem_mem hlen, hopen⟩
  rw [hitems, List.countP_set hlen, hat]
  cases hold : openFor d s.cq[i] with
  | false => cases openFor d q <;> simp
  | true =>
    have := hcounted hold
    cases openFor d q <;> simp <;> omega

/-! ### Changes that keep every account -/

/-- Every target's account is as it was. -/
def Balanced (s t : State) : Prop := ∀ d : Dest, accounted d t = accounted d s

theorem Balanced.refl (s : State) : Balanced s s := fun _ => rfl

theorem Balanced.trans {s t u : State} (h : Balanced s t) (h' : Balanced t u) : Balanced s u :=
  fun d => (h' d).trans (h d)

/-- A loop whose every turn keeps the accounts. -/
theorem Balanced.foldl {α : Type} {f : State → α → State} (hf : ∀ s a, Balanced s (f s a))
    (l : List α) : ∀ s, Balanced s (l.foldl f s) := by
  induction l with
  | nil => exact .refl
  | cons a l ih => exact fun s => (hf s a).trans (ih (f s a))

theorem pqContent_congr {s t : State} (hpq : t.pq = s.pq) (hrd : t.pqRd = s.pqRd)
    (hcnt : t.pqCnt = s.pqCnt) : pqContent t = pqContent s := by
  simp only [pqContent, pqIndex, hpq, hrd, hcnt]

/-- Events are appended, and nothing else of the accounts changes. -/
theorem accounted_of_events (d : Dest) {s t : State} {es : List Event} (hcq : t.cq = s.cq)
    (hpq : pqContent t = pqContent s) (hev : t.ev = s.ev ++ es) :
    accounted d t = accounted d s + doneCount d es := by
  simp only [accounted_eq, items, hcq, hpq, hev, doneCount_append, Nat.add_assoc]

/-- One slot is written and events are appended. -/
theorem accounted_of_setItem (d : Dest) {s t : State} {i : Fin 32} {q : QueueItem} {es : List Event}
    (hcq : t.cq = (setItem i q s).cq) (hpq : pqContent t = pqContent s) (hev : t.ev = s.ev ++ es) :
    accounted d t + (openFor d s.cq[i]).toNat =
      accounted d s + (openFor d q).toNat + doneCount d es := by
  have hitems := items_count_setItem d hcq
  simp only [accounted_eq, hpq, hev, doneCount_append]
  omega

theorem balanced_of_view {s t : State} (h : schedulerView t = schedulerView s) : Balanced s t := by
  obtain ⟨hcq, hpq, hrd, hcnt, hev⟩ := schedulerView_eq_iff.1 h
  exact fun d => accounted_of_events d (es := []) hcq (pqContent_congr hpq hrd hcnt)
    (hev.trans (List.append_nil _).symm)

theorem balanced_respond (r : Resp) (s : State) : Balanced s (respond r s) := balanced_of_view rfl

/-- An event other than a `Done` enters no account. -/
theorem balanced_emit {e : Event} (he : ∀ d, isDoneFor d e = false) (s : State) :
    Balanced s (emit e s) := fun d => by
  rw [accounted_of_events d (s := s) (t := emit e s) (es := [e]) rfl rfl rfl]
  simp [doneCount, he]

/-- A slot's item goes on with its target, and stays in the queue. -/
theorem balanced_of_goesOn {s t : State} {i : Fin 32} {q : QueueItem} (hcq : t.cq = (setItem i q s).cq)
    (hpq : pqContent t = pqContent s) (hev : t.ev = s.ev) (hheld : nonFree s i)
    (hq : q.state ≠ .init) (htarget : q.target = s.cq[i].target) : Balanced s t := fun d => by
  have hcount := accounted_of_setItem d (es := []) hcq hpq (hev.trans (List.append_nil _).symm)
  have hsame : openFor d q = openFor d s.cq[i] := by
    rw [openFor_nonFree hq, openFor_nonFree hheld, htarget]
  rw [hsame] at hcount
  exact Nat.add_right_cancel hcount

/-- A slot's item is freed, its `Done` is emitted, and other events than `Done` may follow. -/
theorem balanced_of_freed {s t : State} {i : Fin 32} {code : Completion} {rsp : Option Command}
    {es : List Event} (hcq : t.cq = (setItemState i .init s).cq) (hpq : pqContent t = pqContent s)
    (hev : t.ev = s.ev ++ ((s.cq[i].target.map (fun d => Event.done d code rsp)).toList ++ es))
    (hes : ∀ d, doneCount d es = 0) (hheld : nonFree s i) : Balanced s t := fun d => by
  have hcount := accounted_of_setItem d (q := freedItem s.cq[i]) hcq hpq hev
  rw [openFor_nonFree hheld, openFor_free (q := freedItem s.cq[i]) rfl, doneCount_append,
    doneCount_done, hes] at hcount
  exact Nat.add_right_cancel hcount

/-! ### The named operations -/

/-- The account of an enqueue: the new item enters that of its target (R185). -/
theorem accounted_enqWrite (d : Dest) {j : Fin 32} (cmd : Command) (target : Option Dest) (now : Time)
    {s : State} (hj : s.cq[j].state = .init) : accounted d (enqWrite j cmd target now s) =
      accounted d s + (decide (target = some d)).toNat := by
  have hcount := accounted_of_setItem d (s := s) (t := enqWrite j cmd target now s) (es := [])
    (q := newItem cmd (nextSeq s) target now) (by rw [enqWrite_eq]; rfl) (by rw [enqWrite_eq]; rfl)
    (by rw [enqWrite_eq, List.append_nil])
  rw [openFor_free hj, openFor_nonFree (q := newItem cmd (nextSeq s) target now) nofun] at hcount
  exact hcount

/-- The Scheduler's own commands have no target (R204, R205). -/
theorem balanced_enqCore_none (cmd : Command) (now : Time) (s : State) :
    Balanced s (enqCore cmd none now s).1 := by
  obtain ⟨_, h⟩ | ⟨j, _, _, h⟩ | ⟨j, hj, _, h⟩ := enqCore_cases s cmd none now <;> rw [h]
  · exact .refl s
  · exact .refl s
  · exact fun d => accounted_enqWrite d cmd none now (findFree_some s hj)

/-- The oldest pending request is the one a pop takes (R40). -/
theorem pqContent_pqPop {s : State} (h : 0 < s.pqCnt) :
    pqContent s = s.pq[s.pqRd] :: pqContent (pqPop s) := by
  obtain ⟨n, hn⟩ : ∃ n, s.pqCnt = n + 1 := ⟨s.pqCnt - 1, by omega⟩
  have hfirst : pqIndex s 0 = s.pqRd := by simp [pqIndex]
  have hnext (k : Nat) : pqIndex (pqPop s) k = pqIndex s (k + 1) := by
    apply Fin.ext
    rw [pqIndex_val, pqIndex_val]
    simp only [pqPop, Fin.val_add]
    omega
  have hcnt : (pqPop s).pqCnt = n := by simp [pqPop, hn]
  simp only [pqContent, hn, hcnt, List.range_succ_eq_map, List.map_cons, List.map_map, hnext, hfirst]
  rfl

/-- A popped request leaves the account of its target. -/
theorem accounted_pqPop (d : Dest) {s : State} (h : 0 < s.pqCnt) :
    accounted d (pqPop s) + (decide (Dest.bulk s.pq[s.pqRd] = d)).toNat = accounted d s := by
  have hitems : items (pqPop s) = items s := rfl
  have hev : (pqPop s).ev = s.ev := rfl
  rw [accounted_eq, accounted_eq, hitems, hev, pqContent_pqPop h, List.countP_cons]
  cases decide (Dest.bulk s.pq[s.pqRd] = d) with
  | false => rfl
  | true =>
    simp only [Bool.toNat_true, if_true]
    omega

theorem accounted_rejectBulk (d : Dest) (r : Nat) (s : State) :
    accounted d (rejectBulk r s) = accounted d s + (decide (Dest.bulk r = d)).toNat := by
  rw [accounted_of_events d (s := s) (t := rejectBulk r s) (es := [.done (.bulk r) .rejected none])
    rfl rfl rfl]
  have hdone := doneCount_done d (some (.bulk r)) .rejected none
  simp only [Option.some.injEq] at hdone
  exact congrArg _ hdone

/-- `gen_bulk` fails the popped request, or creates an item for it (R206). -/
theorem genBulk_fails_or_creates (now : Time) (answer : Option Command) (s : State) :
    genBulk now answer s = rejectBulk s.pq[s.pqRd] (pqPop s) ∨
    ∃ cmd j, (pqPop s).cq[j].state = .init ∧
      genBulk now answer s = enqWrite j cmd (some (.bulk s.pq[s.pqRd])) now (pqPop s) := by
  cases answer with
  | none => exact .inl rfl
  | some cmd =>
    unfold genBulk
    obtain ⟨_, h⟩ | ⟨j, _, _, h⟩ | ⟨j, hj, _, h⟩ :=
      enqCore_cases (pqPop s) cmd (some (.bulk s.pq[s.pqRd])) now
    · left; simp only [h]
    · left; simp only [h]
    · right; exact ⟨cmd, j, findFree_some _ hj, by simp only [h]⟩

/-- A popped request comes back into the account by its `Done`, or by the item it resolves to (R206). -/
theorem balanced_genBulk (now : Time) (answer : Option Command) {s : State} (h : 0 < s.pqCnt) :
    Balanced s (genBulk now answer s) := fun d => by
  rw [← accounted_pqPop d h]
  obtain hb | ⟨cmd, j, hj, hb⟩ := genBulk_fails_or_creates now answer s <;> rw [hb]
  · exact accounted_rejectBulk d _ _
  · rw [accounted_enqWrite d cmd _ now hj]
    simp only [Option.some.injEq]

theorem balanced_generate (now : Time) (answer : Option Command) (s : State) :
    Balanced s (generate now answer s) := by
  unfold generate
  split
  · exact balanced_enqCore_none _ now s
  · split
    · unfold genFetch
      split
      · exact balanced_enqCore_none _ now s
      · split
        · exact balanced_enqCore_none _ now s
        · exact .refl s
    · split
      · next hready =>
        simp only [Bool.and_eq_true, decide_eq_true_eq] at hready
        obtain ⟨⟨-, hpending⟩, -⟩ := hready
        exact balanced_genBulk now answer hpending
      · exact .refl s

theorem balanced_sendOne (now : Time) (txOk : Bool) (s : State) :
    Balanced s (sendOne now txOk s) := by
  obtain h | ⟨j, _, hj, _, _, h⟩ := sendOne_cases s now txOk <;> rw [h]
  · exact .refl s
  · exact balanced_of_goesOn (i := j) (q := { s.cq[j] with state := .waitConfirm, tTx := now })
      rfl rfl rfl (fun hinit => nomatch hj.symm.trans hinit) nofun rfl

theorem balanced_sweepSlot (now : Time) (s : State) (i : Fin 32) :
    Balanced s (sweepSlot now s i) := by
  unfold sweepSlot
  split
  · next hout =>
    simp only [timedOut, Bool.and_eq_true, beq_iff_eq] at hout
    obtain ⟨hwait, -⟩ := hout
    have hheld : nonFree s i := fun hinit => nomatch hwait.symm.trans hinit
    split
    · exact balanced_of_goesOn (i := i)
        (q := { s.cq[i] with retries := s.cq[i].retries + 1, state := .waitSend })
        rfl rfl rfl hheld nofun rfl
    · rw [expireItem, countFailure_eq, emitDone_eq]
      exact balanced_of_freed rfl rfl (List.append_assoc _ _ _) (fun d => by split <;> rfl) hheld
  · exact .refl s

theorem balanced_sweep (now : Time) (s : State) : Balanced s (sweep now s) :=
  .foldl (balanced_sweepSlot now) slots s

theorem balanced_tickBody (now : Time) (txOk : Bool) (answer : Option Command) (s : State) :
    Balanced s (tickBody now txOk answer s) := by
  have hdisarm : Balanced s (disarmTimer s) := balanced_of_view rfl
  have hrearm (u : State) : Balanced u (rearm now u) := balanced_of_view rfl
  exact (((hdisarm.trans (balanced_sweep now _)).trans (balanced_generate now answer _)).trans
    (balanced_sendOne now txOk _)).trans (hrearm _)

theorem balanced_confirmMatch (cmd : Command) (now : Time) (s : State) :
    Balanced s (confirmMatch cmd now s) := by
  unfold confirmMatch
  split
  · exact .refl s
  · next i hfind =>
    have hconfirms : confirms cmd s i = true := List.find?_some hfind
    simp only [confirms, Bool.and_eq_true, beq_iff_eq] at hconfirms
    obtain ⟨⟨hwait, -⟩, -⟩ := hconfirms
    rw [emitDone_eq]
    exact balanced_of_freed (es := []) rfl rfl (by rw [List.append_nil]; rfl) (fun _ => rfl)
      (fun hinit => nomatch hwait.symm.trans hinit)

theorem balanced_updateStatus (cmd : Command) (s : State) : Balanced s (updateStatus cmd s) := by
  unfold updateStatus
  split
  · exact .refl s
  · next b0 b1 _ =>
    split
    · exact .refl s
    · have hstatus : Balanced s { s with devStatus0 := b0, devStatus1 := b1 } := balanced_of_view rfl
      exact hstatus.trans (balanced_emit (fun _ => rfl) _)

theorem balanced_dispatch (cmd : Command) (now : Time) (s : State) :
    Balanced s (dispatch cmd now s) :=
  ((balanced_confirmMatch cmd now s).trans (balanced_updateStatus cmd _)).trans
    (balanced_emit (fun _ => rfl) _)

theorem balanced_receive (p : List Byte) (now : Time) (s : State) : Balanced s (receive p now s) := by
  obtain ⟨cmd, _, h⟩ | ⟨e, _, h⟩ := receive_cases s p now <;> rw [h]
  · exact balanced_dispatch cmd now s
  · exact balanced_of_view rfl

theorem balanced_execRxByte {b : Byte} {now : Time} {s t : State} (h : execRxByte b now s = .next t) :
    Balanced s t := by
  obtain rfl | ⟨_, s1, hfeed, ht⟩ := execRxByte_cases h
  · exact balanced_respond .none s
  · have hfed : Balanced s s1 :=
      balanced_of_view (schedulerView_of_sameButReceiver (feed_sameButReceiver s hfeed))
    obtain rfl | ⟨p, rfl⟩ := ht
    · exact hfed.trans (balanced_respond .none s1)
    · exact (hfed.trans (balanced_receive p now s1)).trans (balanced_respond .none _)

theorem balanced_killSlot (s : State) (i : Fin 32) : Balanced s (killSlot s i) := by
  unfold killSlot
  split
  · exact .refl s
  · next hheld =>
    rw [free_iff] at hheld
    rw [emitDone_eq]
    exact balanced_of_freed (es := []) rfl rfl (by rw [List.append_nil]; rfl) (fun _ => rfl) hheld

/-- The `Done` events of the requests that kill drains enter the accounts they leave (R190). -/
theorem doneCount_requests (d : Dest) (code : Completion) (l : List Nat) :
    doneCount d (l.map (fun r => Event.done (.bulk r) code none)) =
      l.countP (fun r => decide (Dest.bulk r = d)) :=
  List.countP_map

theorem balanced_killAll (s : State) : Balanced s (killAll s) := by
  intro d
  have hslots : Balanced s (slots.foldl killSlot s) := .foldl balanced_killSlot slots s
  obtain ⟨cq, hfold, -⟩ := killFold_eq s
  have hpq : pqContent (slots.foldl killSlot s) = pqContent s := by rw [hfold]; rfl
  rw [← hslots d, killAll_eq]
  generalize slots.foldl killSlot s = u at *
  rw [accounted_eq, accounted_eq, hpq, doneCount_append, doneCount_requests]
  change (items u).countP (openFor d) + 0 + _ = _
  omega

/-! ### The two requests that may be accepted (R184, R188) -/

theorem toNat_decide_eq (a d : Dest) : (decide (a = d)).toNat = if d = a then 1 else 0 := by
  by_cases h : a = d
  · simp [h]
  · simp [h, Ne.symm h]

/-- The answer of `SQ.ENQ` says that a `Done` for the command was emitted or will be (R184). -/
def answersFor (r : Resp) : Prop := (∃ j : Fin 32, r = .okSlot j) ∨ r = .err .rejected

/-- `SQ.ENQ` takes the command into the account of its target, or leaves every account (R184, R191). -/
theorem accounted_sqEnq {cmd : Command} {x : Nat} {now : Time} {s t : State}
    (h : exec (.sqEnq cmd x now) s = .next t) :
    (answersFor t.resp ∧ ∀ d, accounted d t =
      accounted d s + if d = .ext (x % 2 ^ s.cfg.targetW) then 1 else 0) ∨
    (¬ answersFor t.resp ∧ Balanced s t) := by
  obtain ⟨_, ht⟩ | ⟨_, _, ht⟩ | ⟨_, j, hj, ⟨_, ht⟩ | ⟨_, ht⟩⟩ := exec_sqEnq_cases cmd x now s <;>
    obtain rfl := Host.Outcome.next.inj (h.symm.trans ht)
  · exact .inr ⟨by simp [answersFor], balanced_respond _ s⟩
  · exact .inr ⟨by simp [answersFor], balanced_respond _ s⟩
  · refine .inl ⟨.inr rfl, fun d => ?_⟩
    have hdone := doneCount_done d (some (.ext (x % 2 ^ s.cfg.targetW))) .rejected none
    simp only [Option.some.injEq, toNat_decide_eq] at hdone
    rw [balanced_respond _ _ d, ← hdone]
    exact accounted_of_events d rfl rfl rfl
  · refine .inl ⟨.inl ⟨j, rfl⟩, fun d => ?_⟩
    rw [balanced_respond _ _ d, ← enqWrite_eq_itemCreated, accounted_enqWrite d cmd _ now hj]
    simp only [Option.some.injEq, toNat_decide_eq]

/-- A request pushed enters the account of its target. -/
theorem accounted_pqPut (d : Dest) (r : Nat) {s : State} (hroom : s.pqCnt < 16) :
    accounted d (pqPut r s) = accounted d s + if d = .bulk r then 1 else 0 := by
  have hitems : items (pqPut r s) = items s := rfl
  have hev : (pqPut r s).ev = s.ev := rfl
  have hone : [r].countP (fun r => decide (Dest.bulk r = d)) = if d = .bulk r then 1 else 0 := by
    rw [List.countP_singleton, ← toNat_decide_eq]
    cases decide (Dest.bulk r = d) <;> rfl
  rw [accounted_eq, accounted_eq, hitems, hev, pqContent_pqPut r hroom, List.countP_append, hone]
  omega

/-- `PQ.PUSH` takes the request into the account of its target, or leaves every account (R188, R191). -/
theorem accounted_pqPush {x : Nat} {s t : State} (h : exec (.pqPush x) s = .next t) :
    (t.resp = .ok ∧ (pendingOk s → ∀ d, accounted d t =
      accounted d s + if d = .bulk (x % 2 ^ s.cfg.reqIdW) then 1 else 0)) ∨
    (t.resp ≠ .ok ∧ Balanced s t) := by
  by_cases hup : s.linkUp = true
  · by_cases hfull : s.pqCnt = 16
    · obtain rfl := Host.Outcome.next.inj (h.symm.trans (exec_pqPush_full hup hfull))
      exact .inr ⟨nofun, balanced_respond _ s⟩
    · obtain rfl := Host.Outcome.next.inj (h.symm.trans (exec_pqPush_room hup hfull))
      refine .inl ⟨rfl, fun hpending d => ?_⟩
      rw [balanced_respond _ _ d]
      exact accounted_pqPut d _ (lt_of_le_of_ne hpending hfull)
  · rw [Bool.not_eq_true] at hup
    obtain rfl := Host.Outcome.next.inj (h.symm.trans (exec_pqPush_down hup))
    exact .inr ⟨nofun, balanced_respond _ s⟩

/-! ### Every other operation (R191) -/

/-- Every operation but the two requests and the reset keeps every account. -/
theorem exec_balanced {i : Instr} {s t : State} (h : exec i s = .next t) (hreset : i ≠ .sysReset)
    (henq : ∀ (cmd : Command) (x : Nat) (now : Time), i ≠ .sqEnq cmd x now)
    (hpush : ∀ r : Nat, i ≠ .pqPush r) : Balanced s t := by
  cases hi : schedules i with
  | false => exact balanced_of_view (exec_schedulerView hi h)
  | true =>
    cases i with
    | sysReset => exact absurd rfl hreset
    | sqEnq cmd x now => exact absurd rfl (henq cmd x now)
    | pqPush x => exact absurd rfl (hpush x)
    | sqKill =>
      obtain rfl := Host.Outcome.next.inj h
      exact (balanced_killAll s).trans (balanced_respond _ _)
    | sqTick now txOk answer =>
      obtain ⟨_, rfl⟩ | rfl := execSqTick_cases h
      · exact (balanced_tickBody now txOk answer s).trans (balanced_respond _ _)
      · exact balanced_respond _ s
    | tickSweep now =>
      obtain rfl := Host.Outcome.next.inj h
      exact (balanced_sweep now s).trans (balanced_respond _ _)
    | tickGen now answer =>
      obtain rfl := Host.Outcome.next.inj h
      exact (balanced_generate now answer s).trans (balanced_respond _ _)
    | tickSend now txOk =>
      obtain rfl := Host.Outcome.next.inj h
      exact (balanced_sendOne now txOk s).trans (balanced_respond _ _)
    | sqDisp cmd now =>
      obtain rfl := Host.Outcome.next.inj h
      exact (balanced_dispatch cmd now s).trans (balanced_respond _ _)
    | rxByte b now => exact balanced_execRxByte h
    | evConn now =>
      obtain rfl | rfl := execEvConn_cases h
      · exact balanced_respond _ s
      · have hconn : Balanced s (connect now s) := balanced_of_view rfl
        exact (hconn.trans (balanced_emit (fun _ => rfl) _)).trans (balanced_respond _ _)
    | evDisc reason =>
      obtain rfl := Host.Outcome.next.inj h
      have hdisarm : Balanced s (disarmTimer s) := balanced_of_view rfl
      have hdown (u : State) : Balanced u { u with linkUp := false } := balanced_of_view rfl
      exact (((hdisarm.trans (balanced_killAll _)).trans (hdown _)).trans
        (balanced_emit (fun _ => rfl) _)).trans (balanced_respond _ _)
    | _ => cases hi

/-- Settles O59: the accepting requests add to one account, and no other operation changes any. -/
theorem acceptedCommandsAndDonesBalancePerTarget :
    Obligations.AcceptedCommandsAndDonesBalancePerTarget := by
  unfold Obligations.AcceptedCommandsAndDonesBalancePerTarget
  intro i s t d h hreset
  refine ⟨fun henq hpush => exec_balanced h hreset henq hpush d, ?enqueue, ?push⟩
  case enqueue =>
    rintro cmd x now rfl
    obtain ⟨hok, hadd⟩ | ⟨hno, hsame⟩ := accounted_sqEnq h
    · exact ⟨fun _ => hadd d, fun hno => absurd hok hno⟩
    · exact ⟨fun hok => absurd hok hno, fun _ => hsame d⟩
  case push =>
    rintro r rfl
    obtain ⟨hok, hadd⟩ | ⟨hno, hsame⟩ := accounted_pqPush h
    · exact ⟨fun hpending _ => hadd hpending d, fun hno => absurd hok hno⟩
    · exact ⟨fun _ hok => absurd hok hno, fun _ => hsame d⟩

end Sys2Proof.Proofs
end

section
/-! Proofs of the family 43_scheduler_service: what the four steps of a tick do one by one, that the tick is
their composition, and what a dispatched command changes. -/

namespace Sys2Proof.Proofs

open Sys2Proof Sys2Proof.Machine Sys2Proof.Safety

/-! ### The timer (R210) -/

/-- Settles O39: adding to a time is addition modulo 2^32. -/
theorem rearmCountsFromNow : Obligations.RearmCountsFromNow := by
  unfold Obligations.RearmCountsFromNow
  intro s now
  refine ⟨now + BitVec.ofNat 32 s.cfg.tTick, rfl, ?_⟩
  rw [BitVec.toNat_add, BitVec.toNat_ofNat, Nat.add_mod_mod]

/-! ### The tick as a composition (R200)

Run by itself each step leaves its own result behind, so the composition rests on this: no step reads the
result of the operation before it. -/

section Respond

variable (r : Resp) (s : State)

theorem nextSeq_respond : nextSeq (respond r s) = nextSeq s := nextSeq_congr rfl rfl

theorem enqWrite_respond (j : Fin 32) (cmd : Command) (target : Option Dest) (now : Time) :
    enqWrite j cmd target now (respond r s) = respond r (enqWrite j cmd target now s) := by
  rw [enqWrite_eq, enqWrite_eq, nextSeq_respond]
  rfl

theorem enqCore_respond (cmd : Command) (target : Option Dest) (now : Time) :
    enqCore cmd target now (respond r s) =
      (respond r (enqCore cmd target now s).1, (enqCore cmd target now s).2) := by
  have hfind : findFree (respond r s) = findFree s := rfl
  have henc : encodes (respond r s) cmd = encodes s cmd := rfl
  unfold enqCore
  rw [hfind, henc]
  cases findFree s with
  | none => rfl
  | some j =>
    cases encodes s cmd with
    | false => rfl
    | true => simp only [if_true, enqWrite_respond]

theorem genFetch_respond (now : Time) : genFetch now (respond r s) = respond r (genFetch now s) := by
  simp only [genFetch, enqCore_respond, apply_ite (respond r)]
  rfl

theorem genBulk_respond (now : Time) (answer : Option Command) :
    genBulk now answer (respond r s) = respond r (genBulk now answer s) := by
  have hpop : pqPop (respond r s) = respond r (pqPop s) := rfl
  cases answer with
  | none => rfl
  | some c =>
    simp only [genBulk, hpop, enqCore_respond, respond_pq, respond_pqRd]
    obtain ⟨t, _ | _⟩ := enqCore c (some (.bulk s.pq[s.pqRd])) now (pqPop s) <;> rfl

theorem generate_respond (now : Time) (answer : Option Command) :
    generate now answer (respond r s) = respond r (generate now answer s) := by
  simp only [generate, enqCore_respond, genFetch_respond, genBulk_respond, apply_ite (respond r)]
  rfl

theorem sendOne_respond (now : Time) (txOk : Bool) :
    sendOne now txOk (respond r s) = respond r (sendOne now txOk s) := by
  have hfind : oldestWaiting (respond r s) = oldestWaiting s := rfl
  unfold sendOne
  rw [hfind]
  cases oldestWaiting s with
  | none => rfl
  | some j => simp only [apply_ite (respond r)]; rfl

theorem rearm_respond (now : Time) : rearm now (respond r s) = respond r (rearm now s) := rfl

theorem respond_respond (q : Resp) : respond r (respond q s) = respond r s := rfl

end Respond

theorem tickEnabled_iff (now : Time) (s : State) : tickEnabled now s = true ↔
    s.timerArmed = true ∧ (now - s.timerDue).toNat < 2 ^ 31 := by
  rw [tickEnabled, Bool.and_eq_true, due, decide_eq_true_eq, age]

/-- Settles O34: each step hands its state on, and the next one does not read the result left in it. -/
theorem tickIsItsFourStepsInOrder : Obligations.TickIsItsFourStepsInOrder := by
  unfold Obligations.TickIsItsFourStepsInOrder
  intro s now txOk answer
  constructor
  · intro hen
    refine ⟨respond .none (sweep now (disarmTimer s)), respond .none (generate now answer _),
      respond .none (sendOne now txOk _), respond .none (rearm now _), rfl, rfl, rfl, rfl, ?_⟩
    change execSqTick now txOk answer s = _
    rw [execSqTick, if_pos ((tickEnabled_iff now s).2 hen), tickBody]
    simp only [generate_respond, sendOne_respond, rearm_respond, respond_respond]
  · intro hen
    change execSqTick now txOk answer s = _
    rw [execSqTick, if_neg (fun h => hen ((tickEnabled_iff now s).1 h))]
    rfl

/-! ### The sweep (R201 to R203) -/

/-- The items a sweep frees among those in the slots `l`, in that order. -/
def expiring (now : Time) (s : State) (l : List (Fin 32)) : List QueueItem :=
  (l.map (fun i => s.cq[i])).filter (expires now s.cfg)

theorem expires_iff (now : Time) (s : State) (i : Fin 32) : expires now s.cfg s.cq[i] = true ↔
    timedOut now s i = true ∧ ¬ s.cq[i].retries.toNat < s.cfg.maxRetries := by
  simp [expires, timedOut, age]

/-- At a slot whose item stays, in flight or for another attempt, nothing is counted or reported. -/
theorem sweepSlot_of_not_expires {now : Time} {s : State} {i : Fin 32}
    (h : ¬ expires now s.cfg s.cq[i] = true) :
    (sweepSlot now s i).failCtr = s.failCtr ∧ (sweepSlot now s i).ev = s.ev := by
  rw [expires_iff] at h
  unfold sweepSlot
  split
  · next hout =>
    rw [if_pos (not_not.1 (fun hretry => h ⟨hout, hretry⟩))]
    exact ⟨rfl, rfl⟩
  · exact ⟨rfl, rfl⟩

theorem sweepSlot_of_expires {now : Time} {s : State} {i : Fin 32}
    (h : expires now s.cfg s.cq[i] = true) : sweepSlot now s i = expireItem i s := by
  obtain ⟨hout, hretry⟩ := (expires_iff now s i).1 h
  rw [sweepSlot, if_pos hout, if_neg hretry]

theorem expireItem_failCtr (i : Fin 32) (s : State) :
    (expireItem i s).failCtr = failCtrUp s.failCtr := by
  rw [expireItem, countFailure_eq, emitDone_eq]
  rfl

/-- An expiry reports the item's end, then asks for a teardown if it reaches the threshold (R203). -/
theorem expireItem_ev (i : Fin 32) (s : State) : (expireItem i s).ev =
    s.ev ++ ((doneOf .timeout s.cq[i]).toList ++
      if s.failCtr.toNat < 255 ∧ s.failCtr.toNat + 1 = s.cfg.failThreshold then [.teardownReq]
      else []) := by
  rw [expireItem, countFailure_eq, emitDone_eq, ← List.append_assoc]
  simp only [crossesThreshold, decide_eq_true_eq]
  rfl

/-- The turn at a slot leaves the items of the other slots to expire as before. -/
theorem expiring_sweepSlot {now : Time} {s : State} {i : Fin 32} {l : List (Fin 32)} (hi : i ∉ l) :
    expiring now (sweepSlot now s i) l = expiring now s l := by
  unfold expiring
  rw [sweepSlot_cfg]
  refine congrArg _ (List.map_congr_left (fun j hj => ?_))
  have hij : i ≠ j := fun hij => hi (hij ▸ hj)
  rw [sweepSlot_at, if_neg hij]

/-- The sweep counts and reports the items it frees, in the order of the slots it visits (R203). -/
theorem sweepFold_counts_and_reports {now : Time} {l : List (Fin 32)} (hl : l.Nodup) (s : State) :
    (l.foldl (sweepSlot now) s).failCtr.toNat =
        min 255 (s.failCtr.toNat + (expiring now s l).length) ∧
      (l.foldl (sweepSlot now) s).ev =
        s.ev ++ expiryEvents s.cfg.failThreshold s.failCtr.toNat (expiring now s l) := by
  induction l generalizing s with
  | nil =>
    have hlt := s.failCtr.isLt
    have hnone : (expiring now s []).length = 0 := rfl
    exact ⟨by rw [List.foldl_nil, hnone]; omega, (List.append_nil _).symm⟩
  | cons i l ih =>
    obtain ⟨hi, hl⟩ := List.nodup_cons.1 hl
    obtain ⟨hctr, hev⟩ := ih hl (sweepSlot now s i)
    rw [expiring_sweepSlot hi] at hctr hev
    rw [sweepSlot_cfg] at hev
    rw [List.foldl_cons, hctr, hev]
    by_cases hexp : expires now s.cfg s.cq[i] = true
    · have hcons : expiring now s (i :: l) = s.cq[i] :: expiring now s l := List.filter_cons_of_pos hexp
      rw [sweepSlot_of_expires hexp, expireItem_failCtr, failCtrUp_toNat, expireItem_ev, hcons,
        List.length_cons, expiryEvents, List.append_assoc]
      exact ⟨by omega, rfl⟩
    · obtain ⟨hsame, hquiet⟩ := sweepSlot_of_not_expires hexp
      have hskip : expiring now s (i :: l) = expiring now s l := List.filter_cons_of_neg hexp
      rw [hsame, hquiet, hskip]
      exact ⟨rfl, rfl⟩

theorem expiring_slots (now : Time) (s : State) :
    expiring now s slots = (items s).filter (expires now s.cfg) := by
  rw [expiring, items_eq_map_slots]

theorem sweep_counts_and_reports (now : Time) (s : State) :
    (sweep now s).failCtr.toNat =
        min 255 (s.failCtr.toNat + ((items s).filter (expires now s.cfg)).length) ∧
      (sweep now s).ev = s.ev ++
        expiryEvents s.cfg.failThreshold s.failCtr.toNat ((items s).filter (expires now s.cfg)) := by
  rw [← expiring_slots, sweep]
  exact sweepFold_counts_and_reports nodup_slots s

/-- Settles O36: the fold of the sweep, over all the slots. -/
theorem expiriesSignalTimeoutAndCount : Obligations.ExpiriesSignalTimeoutAndCount := by
  unfold Obligations.ExpiriesSignalTimeoutAndCount
  intro s now
  refine ⟨respond .none (sweep now s), rfl, ?_⟩
  rw [respond_failCtr, respond_ev]
  exact sweep_counts_and_reports now s

section SweptItem

variable {now : Time} {s : State} {i : Fin 32}

theorem sweptItem_of_retry (hout : agedOut now s i) (hretry : s.cq[i].retries.toNat < s.cfg.maxRetries) :
    sweptItem now s.cfg s.cq[i] =
      { s.cq[i] with retries := s.cq[i].retries + 1, state := .waitSend } := by
  obtain ⟨hstate, hage⟩ := hout
  rw [sweptItem, if_pos ⟨hstate, hage⟩, if_pos hretry]

theorem sweptItem_of_expire (hout : agedOut now s i)
    (hretry : ¬ s.cq[i].retries.toNat < s.cfg.maxRetries) :
    sweptItem now s.cfg s.cq[i] = { s.cq[i] with state := .init } := by
  obtain ⟨hstate, hage⟩ := hout
  rw [sweptItem, if_pos ⟨hstate, hage⟩, if_neg hretry]

theorem sweptItem_of_not_agedOut (h : ¬ agedOut now s i) :
    sweptItem now s.cfg s.cq[i] = s.cq[i] := if_neg h

end SweptItem

/-- Settles O35: the frame of the sweep, with what it makes of each item. -/
theorem sweepRetriesOrFreesWhatTimedOut : Obligations.SweepRetriesOrFreesWhatTimedOut := by
  unfold Obligations.SweepRetriesOrFreesWhatTimedOut
  intro s now
  obtain ⟨es, hev⟩ : ∃ es, (sweep now s).ev = s.ev ++ es := ⟨_, (sweep_counts_and_reports now s).2⟩
  have hexec : exec (.tickSweep now) s = .next (respond .none (sweep now s)) := rfl
  have hframe := eq_of_hideQueue (sweep_frame s now)
  have hat := sweep_at now s
  generalize sweep now s = t at *
  refine ⟨t.cq, t.failCtr, es, ?_, fun i => ⟨
    fun hout hretry => (hat i).trans (sweptItem_of_retry hout hretry),
    fun hout hretry => (hat i).trans (sweptItem_of_expire hout hretry),
    fun hin => (hat i).trans (sweptItem_of_not_agedOut hin)⟩⟩
  rw [hexec, ← hev]
  exact congrArg (fun u => Host.Outcome.next (respond .none u)) hframe

/-! ### Generation (R204 to R206) -/

theorem keepaliveDue_iff (now : Time) (s : State) :
    keepaliveDue now s = true ↔ keepaliveWanted now s := by
  rw [keepaliveDue, Bool.or_eq_true, Bool.and_eq_true]
  simp only [decide_eq_true_eq]
  rfl

theorem queued_iff (s : State) (id : Byte) : queued s id = true ↔ idHeld s id := by
  simp [queued, free, idHeld, nonFree]

/-- The test a generated command is put to: asked for, and none of its kind held (R204, R205). -/
theorem and_not_queued_iff {wanted : Bool} {s : State} {id : Byte} :
    (wanted && !queued s id) = true ↔ wanted = true ∧ ¬ idHeld s id := by
  rw [Bool.and_eq_true, ← queued_iff, Bool.not_eq_true', Bool.not_eq_true]

theorem keepaliveTest_iff {now : Time} {s : State} :
    (keepaliveDue now s && !queued s s.cfg.keepalive.id) = true ↔
      keepaliveWanted now s ∧ ¬ idHeld s s.cfg.keepalive.id := by
  rw [and_not_queued_iff, keepaliveDue_iff]

theorem findFree_isSome_iff (s : State) :
    (findFree s).isSome = true ↔ ∃ i : Fin 32, s.cq[i].state = .init := by
  rw [Option.isSome_iff_ne_none, Ne, findFree_eq_none_iff]
  simp only [nonFree, not_forall, not_not]

theorem bulkTest_iff {s : State} :
    (dsJoined s && dsFreeSlot s && decide (0 < s.pqCnt) && (findFree s).isSome) = true ↔
      dsJoined s = true ∧ dsFreeSlot s = true ∧ 0 < s.pqCnt ∧ ∃ i : Fin 32, s.cq[i].state = .init := by
  simp only [Bool.and_eq_true, decide_eq_true_eq, findFree_isSome_iff, and_assoc]

section Generate

variable {now : Time} {answer : Option Command} {s : State}

theorem generate_of_keepalive (h : keepaliveWanted now s ∧ ¬ idHeld s s.cfg.keepalive.id) :
    generate now answer s = (enqCore s.cfg.keepalive none now s).1 := by
  rw [generate, if_pos (keepaliveTest_iff.2 h)]

variable (hka : ¬ (keepaliveWanted now s ∧ ¬ idHeld s s.cfg.keepalive.id))
include hka

theorem generate_of_pending (h : dsConfirmPending s = true ∨ dsIndicationPending s = true) :
    generate now answer s = genFetch now s := by
  rw [generate, if_neg (mt keepaliveTest_iff.1 hka), if_pos (Bool.or_eq_true_iff.2 h)]

variable (hquiet : ¬ (dsConfirmPending s = true ∨ dsIndicationPending s = true))
include hquiet

theorem generate_of_bulkOpen (h : dsJoined s = true ∧ dsFreeSlot s = true ∧ 0 < s.pqCnt ∧
    ∃ i : Fin 32, s.cq[i].state = .init) : generate now answer s = genBulk now answer s := by
  rw [generate, if_neg (mt keepaliveTest_iff.1 hka), if_neg (mt Bool.or_eq_true_iff.1 hquiet),
    if_pos (bulkTest_iff.2 h)]

theorem generate_of_bulkShut (h : ¬ (dsJoined s = true ∧ dsFreeSlot s = true ∧ 0 < s.pqCnt ∧
    ∃ i : Fin 32, s.cq[i].state = .init)) : generate now answer s = s := by
  rw [generate, if_neg (mt keepaliveTest_iff.1 hka), if_neg (mt Bool.or_eq_true_iff.1 hquiet),
    if_neg (mt bulkTest_iff.1 h)]

end Generate

theorem genFetch_of_confirm {now : Time} {s : State}
    (h : dsConfirmPending s = true ∧ ¬ idHeld s s.cfg.fetchConfirm.id) :
    genFetch now s = (enqCore s.cfg.fetchConfirm none now s).1 := by
  rw [genFetch, if_pos (and_not_queued_iff.2 h)]

theorem genFetch_of_indication {now : Time} {s : State}
    (hconfirm : ¬ (dsConfirmPending s = true ∧ ¬ idHeld s s.cfg.fetchConfirm.id))
    (h : dsIndicationPending s = true ∧ ¬ idHeld s s.cfg.fetchInd.id) :
    genFetch now s = (enqCore s.cfg.fetchInd none now s).1 := by
  rw [genFetch, if_neg (mt and_not_queued_iff.1 hconfirm), if_pos (and_not_queued_iff.2 h)]

theorem genFetch_of_held {now : Time} {s : State}
    (hconfirm : ¬ (dsConfirmPending s = true ∧ ¬ idHeld s s.cfg.fetchConfirm.id))
    (hind : ¬ (dsIndicationPending s = true ∧ ¬ idHeld s s.cfg.fetchInd.id)) : genFetch now s = s := by
  rw [genFetch, if_neg (mt and_not_queued_iff.1 hconfirm), if_neg (mt and_not_queued_iff.1 hind)]

section Bulk

variable {now : Time} {s t : State} {c : Command}

theorem genBulk_of_ok {j : Fin 32}
    (h : enqCore c (some (.bulk s.pq[s.pqRd])) now (pqPop s) = (t, .ok j)) :
    genBulk now (some c) s = t := by
  simp only [genBulk, h]

theorem genBulk_of_error {e : HostError}
    (h : enqCore c (some (.bulk s.pq[s.pqRd])) now (pqPop s) = (t, .error e)) :
    genBulk now (some c) s = rejectBulk s.pq[s.pqRd] t := by
  simp only [genBulk, h]

end Bulk

/-- Settles O37: each clause is one branch of the generation step, or of the fetch or the bulk request in it. -/
theorem generationTakesAtMostOneBranch : Obligations.GenerationTakesAtMostOneBranch := by
  unfold Obligations.GenerationTakesAtMostOneBranch
  intro s now answer pendingConfirm pendingInd bulkOpen popped rejected becomes
  have hbecomes {t : State} (h : generate now answer s = t) : becomes t :=
    h ▸ (rfl : execTickGen now answer s = .next (respond .none (generate now answer s)))
  refine ⟨fun h => hbecomes (generate_of_keepalive h), fun hka => ⟨fun hc => ?confirm,
    fun hc hi => ?indication, fun hc hi hpending => ?held, fun hc hi hshut => ?shut,
    fun hc hi hopen => ?bulk⟩⟩
  case confirm =>
    exact hbecomes ((generate_of_pending hka (.inl hc.1)).trans (genFetch_of_confirm hc))
  case indication =>
    exact hbecomes ((generate_of_pending hka (.inr hi.1)).trans (genFetch_of_indication hc hi))
  case held => exact hbecomes ((generate_of_pending hka hpending).trans (genFetch_of_held hc hi))
  case shut => exact hbecomes (generate_of_bulkShut hka (not_or.2 ⟨hc, hi⟩) hshut)
  case bulk =>
    have hgen := generate_of_bulkOpen (answer := answer) hka (not_or.2 ⟨hc, hi⟩) hopen
    refine ⟨?_, ?_, ?_⟩
    · rintro rfl
      exact hbecomes hgen
    · rintro c t j rfl henq
      exact hbecomes (hgen.trans (genBulk_of_ok henq))
    · rintro c t e rfl henq
      exact hbecomes (hgen.trans (genBulk_of_error henq))

/-! ### The send step (R208) -/

theorem oldestWaiting_eq_some_iff {s : State} {j : Fin 32} :
    oldestWaiting s = some j ↔ firstFrom s.sndPtr j (fun i => s.cq[i].state = .waitSend) := by
  simp only [oldestWaiting, find?_slotsFrom_eq_some_iff, beq_iff_eq]

theorem oldestWaiting_eq_none_iff {s : State} :
    oldestWaiting s = none ↔ ∀ i : Fin 32, s.cq[i].state ≠ .waitSend := by
  simp only [oldestWaiting, List.find?_eq_none, mem_slotsFrom, beq_iff_eq, forall_const, Ne]

theorem sendOne_of_open {now : Time} {s : State} {j : Fin 32} (hj : oldestWaiting s = some j)
    (hwindow : inflight s < 2) : sendOne now true s = transmit now j s := by
  simp [sendOne, hj, window, hwindow]

/-- With nothing waiting, the window full or the Transport busy, nothing is handed over (R208). -/
theorem sendOne_of_shut {now : Time} {txOk : Bool} {s : State}
    (h : (∀ i : Fin 32, s.cq[i].state ≠ .waitSend) ∨ ¬ inflight s < 2 ∨ txOk = false) :
    sendOne now txOk s = s := by
  obtain hsame | ⟨j, _, hwaiting, hwindow, htx, _⟩ := sendOne_cases s now txOk
  · exact hsame
  · obtain hnone | hfull | hbusy := h
    · exact absurd hwaiting (hnone j)
    · exact absurd hwindow hfull
    · exact absurd htx (Bool.eq_false_iff.1 hbusy)

/-- Settles O38: the scan finds the waiting item, whose frame is the encoder's. -/
theorem sendHandsOverOneFrame : Obligations.SendHandsOverOneFrame := by
  unfold Obligations.SendHandsOverOneFrame
  intro s now txOk
  have hexec : exec (.tickSend now txOk) s = .next (respond .none (sendOne now txOk s)) := rfl
  rw [hexec]
  refine ⟨?_, fun h => by rw [sendOne_of_shut h]; rfl, ?_⟩
  · rintro j hj hwindow rfl
    rw [sendOne_of_open (oldestWaiting_eq_some_iff.2 hj) hwindow, transmit_eq, itemFrame,
      fcEncode_eq_wireFrame]
    rfl
  · cases hfind : oldestWaiting s with
    | none => exact .inl (oldestWaiting_eq_none_iff.1 hfind)
    | some j => exact .inr ⟨j, oldestWaiting_eq_some_iff.1 hfind⟩

/-! ### Dispatch (R211, R212) -/

theorem confirms_iff (cmd : Command) (s : State) (i : Fin 32) :
    confirms cmd s i = true ↔ confirmsSlot cmd s i := by
  simp only [confirms, confirmsSlot, Bool.and_eq_true, beq_iff_eq, and_assoc]

/-- A scan of the slots from 0 on finds the least slot with the property. -/
theorem find?_slots_eq_some {good : Fin 32 → Bool} {i : Fin 32} (h : slots.find? good = some i) :
    good i = true ∧ ∀ j : Fin 32, j < i → ¬ good j = true := by
  obtain ⟨hi, k, hk, hat, hbefore⟩ := List.find?_eq_some_iff_getElem.1 h
  refine ⟨hi, fun j hj => ?_⟩
  have hki : k = i.val := by rw [← hat]; simp [slots]
  simpa [slots] using hbefore j.val (hki ▸ hj)

theorem confirmMatch_of_find {cmd : Command} {now : Time} {s : State} {i : Fin 32}
    (h : slots.find? (confirms cmd s) = some i) :
    confirmMatch cmd now s = itemConfirmed i cmd now s := by
  simp only [confirmMatch, h, emitDone_eq]
  rfl

/-- Everything step (1) of a dispatch can do: free the least slot that the command confirms, or nothing. -/
theorem confirmMatch_cases (cmd : Command) (now : Time) (s : State) :
    (∃ i : Fin 32, confirmsSlot cmd s i ∧ (∀ j : Fin 32, j < i → ¬ confirmsSlot cmd s j) ∧
        confirmMatch cmd now s = itemConfirmed i cmd now s) ∨
      ((∀ i : Fin 32, ¬ confirmsSlot cmd s i) ∧ confirmMatch cmd now s = s) := by
  simp only [← confirms_iff]
  cases hfind : slots.find? (confirms cmd s) with
  | none =>
    exact .inr ⟨fun i => List.find?_eq_none.1 hfind i (mem_slots i), by simp only [confirmMatch, hfind]⟩
  | some i =>
    obtain ⟨hi, hfirst⟩ := find?_slots_eq_some hfind
    exact .inl ⟨i, hi, hfirst, confirmMatch_of_find hfind⟩

/-- Step (1) of a dispatch leaves the parameters and the device status alone. -/
theorem confirmMatch_keeps_status (cmd : Command) (now : Time) (s : State) :
    (confirmMatch cmd now s).cfg = s.cfg ∧ (confirmMatch cmd now s).devStatus0 = s.devStatus0 ∧
      (confirmMatch cmd now s).devStatus1 = s.devStatus1 := by
  obtain ⟨i, _, _, h⟩ | ⟨_, h⟩ := confirmMatch_cases cmd now s <;> rw [h] <;> exact ⟨rfl, rfl, rfl⟩

theorem updateStatus_of_same {cmd : Command} {s : State}
    (h : statusOf s.cfg cmd = none ∨ statusOf s.cfg cmd = some (s.devStatus0, s.devStatus1)) :
    updateStatus cmd s = s := by
  obtain h | h := h
  · simp only [updateStatus, h]
  · simp only [updateStatus, h, and_self, if_true]

theorem updateStatus_of_new {cmd : Command} {s : State} {b0 b1 : Byte}
    (h : statusOf s.cfg cmd = some (b0, b1)) (hne : ¬ (b0 = s.devStatus0 ∧ b1 = s.devStatus1)) :
    updateStatus cmd s =
      emit (.devStatusChanged b0 b1) { s with devStatus0 := b0, devStatus1 := b1 } := by
  simp only [updateStatus, h, if_neg hne]

/-- Settles O40: the item confirmed, then the status, then the routing. -/
theorem dispatchConfirmsUpdatesAndRoutes : Obligations.DispatchConfirmsUpdatesAndRoutes := by
  unfold Obligations.DispatchConfirmsUpdatesAndRoutes
  intro s cmd now
  have hexec : exec (.sqDisp cmd now) s = .next (respond .none (emit (.commandInd cmd)
    (updateStatus cmd (confirmMatch cmd now s)))) := rfl
  obtain ⟨hcfg, hst0, hst1⟩ := confirmMatch_keeps_status cmd now s
  refine ⟨confirmMatch cmd now s, confirmMatch_cases cmd now s, fun hsame => ?_, fun b0 b1 hst hne => ?_⟩
  · rw [← hcfg, ← hst0, ← hst1] at hsame
    rw [hexec, updateStatus_of_same hsame]
    rfl
  · rw [← hcfg] at hst
    rw [← hst0, ← hst1] at hne
    rw [hexec, updateStatus_of_new hst hne]
    simp only [emit, respond, List.append_assoc, List.singleton_append]

end Sys2Proof.Proofs
end

section
/-! Proofs of the family 44_link_and_system: the read-out registers, the chain a received byte runs through,
the two link events, and the operations on `HOST` that keep the state. -/

namespace Sys2Proof.Proofs

open Sys2Proof Sys2Proof.Machine Sys2Proof.Safety

/-! ### The read-out registers (R47, R240) -/

theorem statusReg_toNat (s : State) : (statusReg s).toNat =
    s.linkUp.toNat + 2 * s.timerArmed.toNat + 4 * s.rxEsc.toNat + 8 * s.rxDrop.toNat +
      16 * s.rxOvf.toNat := by
  have hlink := s.linkUp.toNat_le
  have htimer := s.timerArmed.toNat_le
  have hesc := s.rxEsc.toNat_le
  have hdrop := s.rxDrop.toNat_le
  have hovf := s.rxOvf.toNat_le
  rw [statusReg, BitVec.toNat_ofNat]
  omega

theorem word16_toNat (hi lo : Byte) : (word16 hi lo).toNat = lo.toNat + 256 * hi.toNat := by
  have hhi := hi.isLt
  have hlo := lo.isLt
  rw [word16, BitVec.toNat_ofNat]
  omega

theorem ptrsReg_toNat (s : State) : (ptrsReg s).toNat = s.wrPtr.val + 256 * s.sndPtr.val := by
  have hwr := s.wrPtr.isLt
  have hsnd := s.sndPtr.isLt
  rw [ptrsReg, BitVec.toNat_ofNat]
  omega

/-- A count that fits the bits R47 gives it is shown whole (log 29). -/
theorem shownCount_toNat {count places : Nat} (hfits : count < places) (hplaces : places ≤ 65536) :
    (BitVec.ofNat 16 (count % places)).toNat = count := by
  rw [Nat.mod_eq_of_lt hfits, BitVec.toNat_ofNat]
  exact Nat.mod_eq_of_lt (by omega)

theorem inflight_eq_countP_items (s : State) :
    inflight s = (items s).countP (fun q => q.state == .waitConfirm) := by
  rw [items_eq_map_slots, List.countP_map]
  rfl

theorem nonfreeCount_eq_countP_items (s : State) :
    nonfreeCount s = (items s).countP (fun q => q.state != .init) := by
  rw [items_eq_map_slots, List.countP_map]
  rfl

/-- "0 for every `n` not in the table" (R240). -/
theorem readCsr_of_unlisted (s : State) {n : Byte} (hn : 9 < n.toNat) : readCsr s n = 0 := by
  have hne (k : Byte) (hk : k.toNat ≤ 9) : n ≠ k := by
    rintro rfl
    omega
  simp only [readCsr, hne 0 (by decide), hne 1 (by decide), hne 2 (by decide), hne 3 (by decide),
    hne 4 (by decide), hne 5 (by decide), hne 6 (by decide), hne 7 (by decide), hne 8 (by decide),
    hne 9 (by decide), if_false]

/-- Settles O47, row by row of R47's table; the premises are what makes the counts and the length fit. -/
theorem readOutShowsTheTableOfRegisters : Obligations.ReadOutShowsTheTableOfRegisters := by
  unfold Obligations.ReadOutShowsTheTableOfRegisters
  intro s n hwindow hpending hlen
  refine ⟨readCsr s n, rfl, ?status, ?devstat, ?seq, ?failcnt, ?inflight, ?nonfree, ?pqcnt, ?perr, ?rxlen,
    ?ptrs, readCsr_of_unlisted s⟩ <;> rintro rfl
  case status => exact statusReg_toNat s
  case devstat => exact word16_toNat s.devStatus1 s.devStatus0
  case seq => exact BitVec.toNat_setWidth_of_le (b := s.seqCtr) (by decide)
  case failcnt => exact BitVec.toNat_setWidth_of_le (b := s.failCtr) (by decide)
  case inflight =>
    rw [← inflight_eq_countP_items]
    exact shownCount_toNat (Nat.lt_of_le_of_lt hwindow (by decide)) (by decide)
  case nonfree =>
    rw [← nonfreeCount_eq_countP_items]
    exact shownCount_toNat (Nat.lt_of_le_of_lt (nonfreeCount_le s) (by decide)) (by decide)
  case pqcnt => exact shownCount_toNat (Nat.lt_of_le_of_lt hpending (by decide)) (by decide)
  case perr => exact BitVec.toNat_setWidth_of_le (b := s.lastPerr) (by decide)
  case rxlen =>
    exact (BitVec.toNat_ofNat _ _).trans (Nat.mod_eq_of_lt (Nat.lt_of_le_of_lt hlen (by decide)))
  case ptrs => exact ptrsReg_toNat s

/-! ### The inbound chain (R230) -/

section Inbound

variable {b : Byte} {now : Time} {s t : State} {p : List Byte}

theorem exec_rxByte_down (h : s.linkUp = false) :
    exec (.rxByte b now) s = .next (respond .none s) := by
  rw [exec_rxByte, execRxByte, h]
  rfl

theorem exec_rxByte_of_none (hup : s.linkUp = true) (hfeed : feed b s = .next t)
    (hnone : delivered t = none) : exec (.rxByte b now) s = .next (respond .none t) := by
  simp only [exec_rxByte, execRxByte, hup, hfeed, hnone, if_true]

theorem exec_rxByte_of_some (hup : s.linkUp = true) (hfeed : feed b s = .next t)
    (hsome : delivered t = some p) :
    exec (.rxByte b now) s = .next (respond .none (receive p now t)) := by
  simp only [exec_rxByte, execRxByte, hup, hfeed, hsome, if_true]

theorem receive_of_ok {cmd : Command} (h : ccDecode s.cfg p = .ok cmd) :
    receive p now s = dispatch cmd now s := by
  rw [receive, h]

theorem receive_of_error {e : ParseError} (h : ccDecode s.cfg p = .error e) :
    receive p now s = { s with lastPerr := e.code } := by
  rw [receive, h]

theorem feed_cfg (h : feed b s = .next t) : t.cfg = s.cfg := by
  have hsame : t = _ := feed_sameButReceiver s h
  rw [hsame]

end Inbound

/-- Settles O41: the byte is fed, and what `feed` delivered decides how the operation ends. -/
theorem receivedBytesRunTheInboundChain : Obligations.ReceivedBytesRunTheInboundChain := by
  unfold Obligations.ReceivedBytesRunTheInboundChain
  intro s b now
  refine ⟨exec_rxByte_down, fun hup hcap => ?_⟩
  obtain ⟨t, hfeed, -⟩ := feed_within b hcap
  rw [← feed_cfg hfeed]
  cases hdel : delivered t with
  | none =>
    have hnever (p : List Byte) : delivered t ≠ some p := by rw [hdel]; nofun
    exact ⟨t, _, hfeed, exec_rxByte_of_none hup hfeed hdel, fun _ => rfl,
      fun p _ hp => absurd hp (hnever p), fun p _ hp => absurd hp (hnever p)⟩
  | some p =>
    refine ⟨t, _, hfeed, exec_rxByte_of_some hup hfeed hdel, fun hnone => ?silent,
      fun _ cmd hp hdec => ?dispatched, fun _ e hp hdec => ?malformed⟩
    case silent => cases hdel.symm.trans hnone
    case dispatched =>
      cases hdel.symm.trans hp
      rw [receive_of_ok hdec]
      rfl
    case malformed =>
      cases hdel.symm.trans hp
      rw [receive_of_error hdec]
      rfl

/-! ### The link events (R234, R236) -/

/-- Settles O43, by whether the link is up. -/
theorem connectStartsASession : Obligations.ConnectStartsASession := by
  unfold Obligations.ConnectStartsASession
  intro s now
  have hexec : exec (.evConn now) s = execEvConn now s := rfl
  rw [hexec, execEvConn]
  exact ⟨fun hdown => if_neg (Bool.eq_false_iff.1 hdown), fun hup => if_pos hup⟩

/-- Settles O44: `EV.DISC` is kill on the disarmed state, and kill leaves the timer, no request and no
item. -/
theorem disconnectKillsEverythingThenReports : Obligations.DisconnectKillsEverythingThenReports := by
  unfold Obligations.DisconnectKillsEverythingThenReports
  intro s reason
  refine ⟨respond .none (killAll (disarmTimer s)), rfl, rfl, ?timer, rfl, killAll_free (disarmTimer s)⟩
  case timer =>
    rw [respond_timerArmed, killAll_timerArmed, disarmTimer_timerArmed]

/-! ### The operations on `HOST` that keep the state (R239, R241) -/

/-- Settles O46, by the meaning of `SYS.CLRDIAG`: two assignments and no result. -/
theorem clearDiagnosticsClearsTwoRegisters : Obligations.ClearDiagnosticsClearsTwoRegisters := by
  unfold Obligations.ClearDiagnosticsClearsTwoRegisters
  intro s
  rfl

theorem exec_fcEnc (p : List Byte) (s : State) :
    exec (.fcEnc p) s = .next { s with resp := .bytes (fcEncode p) } := rfl

/-- Settles O48: each of the three results is a function of the operands and the parameters. -/
theorem codecOperationsOnHostArePure : Obligations.CodecOperationsOnHostArePure := by
  unfold Obligations.CodecOperationsOnHostArePure
  intro i p cmd m hi c
  simp only [List.mem_cons, List.not_mem_nil, or_false] at hi
  obtain rfl | rfl | rfl := hi
  · exact ⟨_, fun s _ => exec_fcEnc p s⟩
  · refine ⟨.bytes (ccEncode c cmd m.toNat), fun s hs => ?_⟩
    rw [exec_ccEnc, hs]
  · cases hdec : ccDecode c p with
    | ok decoded => exact ⟨.decoded decoded, fun s hs => exec_ccDec_ok (hs ▸ hdec)⟩
    | error e => exact ⟨.parseErr e, fun s hs => exec_ccDec_error (hs ▸ hdec)⟩

end Sys2Proof.Proofs
end

section
/-! Proofs of the family 60_exceptions: no error outcome stops the block. Each operation that answers an
error answers it in a next state; the one read that could stop the block is `FEED.END`'s, and `rx_len`
within `RX_CAP` keeps it inside the buffer. -/

namespace Sys2Proof.Proofs

open Sys2Proof Sys2Proof.Machine Sys2Proof.Safety

/-- The outcome is a next state: neither a fault nor a refusal. -/
def Completes (o : Host.Outcome State Fault Refusal) : Prop := ∃ t : State, o = .next t

theorem completes_next (t : State) : Completes (.next t) := ⟨t, rfl⟩

theorem completes_ite {p : Prop} [Decidable p] {o o' : Host.Outcome State Fault Refusal}
    (h : Completes o) (h' : Completes o') : Completes (if p then o else o') := by
  split
  · exact h
  · exact h'

/-! ### The receiver (R125, R127) -/

/-- Only `FEED.END` reads the buffer, and within its capacity the read is good (R61). -/
theorem feedStep_completes (sel : FeedSel) {s : State} (hcap : s.rxLen ≤ s.cfg.rxCap) :
    Completes (feedStep sel s) := by
  by_cases hsel : sel = .endFrame
  · subst hsel
    obtain ⟨r, hend, -⟩ := execFeedEnd_within hcap
    exact ⟨_, hend⟩
  · obtain ⟨s1, hnone⟩ := feedStep_fedNothing hsel s
    exact ⟨_, hnone⟩

theorem exec_rxByte_completes (b : Byte) (now : Time) {s : State} (hcap : s.rxLen ≤ s.cfg.rxCap) :
    Completes (exec (.rxByte b now) s) := by
  cases hlink : s.linkUp with
  | false => exact ⟨_, exec_rxByte_down hlink⟩
  | true =>
    obtain ⟨t, hfeed, -⟩ := feed_within b hcap
    cases hdel : delivered t with
    | none => exact ⟨_, exec_rxByte_of_none hlink hfeed hdel⟩
    | some p => exact ⟨_, exec_rxByte_of_some hlink hfeed hdel⟩

/-! ### The operations that answer errors (R18, R140, R184, R188) -/

theorem endDecStep_completes (r : Except ParseError DecWork) (s : State) :
    Completes (endDecStep r s) := by
  cases r with
  | ok k => exact completes_next _
  | error e => exact completes_next _

theorem endEncStep_completes (r : Option EncWork) (s : State) : Completes (endEncStep r s) := by
  cases r with
  | some k => exact completes_next _
  | none => exact completes_next _

theorem exec_ccDec_completes (buf : List Byte) (s : State) : Completes (exec (.ccDec buf) s) := by
  cases hdec : ccDecode s.cfg buf with
  | ok cmd => exact ⟨_, exec_ccDec_ok hdec⟩
  | error e => exact ⟨_, exec_ccDec_error hdec⟩

theorem exec_sqEnq_completes (cmd : Command) (x : Nat) (now : Time) (s : State) :
    Completes (exec (.sqEnq cmd x now) s) := by
  obtain ⟨_, h⟩ | ⟨_, _, h⟩ | ⟨_, _, _, ⟨_, h⟩ | ⟨_, h⟩⟩ := exec_sqEnq_cases cmd x now s <;>
    exact ⟨_, h⟩

theorem exec_pqPush_completes (x : Nat) (s : State) : Completes (exec (.pqPush x) s) :=
  completes_ite (completes_ite (completes_next _) (completes_next _)) (completes_next _)

/-! ### Every operation, every step -/

/-- Within the buffer every operation completes: the receiver steps because they read inside it, the
others because each of their errors only selects the result (R18, R250). -/
theorem exec_completes (i : Instr) {s : State} (hcap : s.rxLen ≤ s.cfg.rxCap) :
    Completes (exec i s) := by
  cases i with
  | feedResync e => exact feedStep_completes (.resync e) hcap
  | feedSkip e b => exact feedStep_completes (.skip e b) hcap
  | feedFlush => exact feedStep_completes .flush hcap
  | feedEnd => exact feedStep_completes .endFrame hcap
  | feedEsc e => exact feedStep_completes (.esc e) hcap
  | feedTmark => exact feedStep_completes .tmark hcap
  | feedTesc => exact feedStep_completes .tesc hcap
  | feedBadesc b => exact feedStep_completes (.badesc b) hcap
  | feedData b => exact feedStep_completes (.data b) hcap
  | decS1 | decS2 | decS4 | decS8 | decStr | decR1 | decR2 | decR4 | decR8 | decRaw =>
    exact endDecStep_completes _ s
  | decBad _ => exact endDecStep_completes (.error .unknownField) s
  | encS1 _ | encS2 _ | encS4 _ | encS8 _ | encStr _ | encR1 _ | encR2 _ | encR4 _ | encR8 _ | encRaw _ =>
    exact endEncStep_completes _ s
  | encBad _ => exact endEncStep_completes none s
  | ccDec buf => exact exec_ccDec_completes buf s
  | sqEnq cmd x now => exact exec_sqEnq_completes cmd x now s
  | pqPush x => exact exec_pqPush_completes x s
  | sqTick _ _ _ | evConn _ => exact completes_ite (completes_next _) (completes_next _)
  | rxByte b now => exact exec_rxByte_completes b now hcap
  | fcEnc _ | ccEnc _ _ | sqSeq | sqKill | tickSweep _ | tickGen _ _ | tickSend _ _ | tickRearm _
  | sqDisp _ _ | evDisc _ | sysReset | sysClrdiag | sysRdcsr _ => exact completes_next _

/-- Settles O56: an idle step stays, a reserved code is answered, and the operation of any other transfer
completes, taking the transfer having left the receiver as it was. -/
theorem noErrorStopsTheBlock : Obligations.NoErrorStopsTheBlock := by
  unfold Obligations.NoErrorStopsTheBlock
  intro s hcfg hcap
  cases hin : s.inbox with
  | nil => exact ⟨s, step_idle hcfg hin⟩
  | cons x rest =>
    cases hdec : decode x with
    | ok i =>
      rw [step_of_decode hcfg hin hdec]
      exact exec_completes i hcap
    | error e =>
      cases e with
      | reservedHostOp op => exact ⟨_, step_of_reservedHostOp hcfg hin hdec⟩
      | reservedXptCode code => exact ⟨_, step_of_reservedXptCode hcfg hin hdec⟩

end Sys2Proof.Proofs
end
